-- ==== Sys2Proof/Word.lean ====
section
/-! DEFINITION. The words the block moves (spec 00_scope.md R9; 10_state.md R30, R53; 30_encoding.md R70). -/

namespace Sys2Proof

/-- A byte: a symbol-byte, a color component, one byte of the scratch buffer. -/
abbrev Byte := BitVec 8

/-- One Pixel Store slot, `PIXEL_W` = 32 bits (R7); also the width of an operand slot and of the data word. -/
abbrev Slot := BitVec 32

/-- One 128-bit command word (R70). -/
abbrev CommandWord := BitVec 128

end Sys2Proof
end

