-- ==== Sys2Proof/Syntax.lean ====
section
/-! DEFINITION. The ten commands of the opcode map (spec 30_encoding.md R75), one constructor per row, each operand
exactly as wide as the field of the command word that carries it (R71, R72, R77). -/

namespace Sys2Proof

/-- The commands. Argument order is that of the pseudocode of each command's rule. -/
inductive Instr where
  /-- INIT (R101). -/
  | init (pin bus freq : Slot)
  /-- SETPX (R110). -/
  | setpx (index color : Slot)
  /-- SETRGB (R115). -/
  | setrgb (index : Slot) (r g b : Byte)
  /-- SETHSV (R117). -/
  | sethsv (index : Slot) (hue sat val : Byte)
  /-- FILL (R120). -/
  | fill (first cnt color : Slot)
  /-- CLEAR (R125). -/
  | clear
  /-- SHOW (R173); `show` alone is a word of Lean. -/
  | showFrame
  /-- GETPX (R130). -/
  | getpx (index : Slot)
  /-- RGB2PK (R141). -/
  | rgb2pk (r g b : Byte)
  /-- HSV2PK (R144). -/
  | hsv2pk (hue sat val : Byte)
  deriving DecidableEq, Repr

end Sys2Proof
end

