-- ==== Sys2Proof/Decode.lean ====
section
/-! DEFINITION. The command word, its decoder and its encoder (spec 30_encoding.md R70 to R78). -/

namespace Sys2Proof

/-- The one reason a word decodes to nothing (R78, 60_exceptions.md R202). -/
inductive DecodeRefusal where
  /-- `ILLEGAL_ENCODING`: a reserved opcode, a nonzero `RSVD` bit, or a nonzero unused operand bit. -/
  | illegalEncoding
  deriving DecidableEq, Repr

/-- `OPC`, bits `[127:120]` (R70). -/
def opcOf (w : CommandWord) : Byte := w.extractLsb' 120 8

/-- `RSVD`, bits `[119:96]` (R70). -/
def rsvdOf (w : CommandWord) : BitVec 24 := w.extractLsb' 96 24

/-- Operand slot A, bits `[95:64]` (R70). -/
def slotA (w : CommandWord) : Slot := w.extractLsb' 64 32

/-- Operand slot B, bits `[63:32]` (R70). -/
def slotB (w : CommandWord) : Slot := w.extractLsb' 32 32

/-- Operand slot C, bits `[31:0]` (R70). -/
def slotC (w : CommandWord) : Slot := w.extractLsb' 0 32

/-- `C[31:24]`, unused by the commands that take color components (R74). -/
def topOfC (w : CommandWord) : Byte := w.extractLsb' 24 8

/-- `C[23:16]`: `r` or `hue` (R77). -/
def component1 (w : CommandWord) : Byte := w.extractLsb' 16 8

/-- `C[15:8]`: `g` or `sat` (R77). -/
def component2 (w : CommandWord) : Byte := w.extractLsb' 8 8

/-- `C[7:0]`: `b` or `val` (R77). -/
def component3 (w : CommandWord) : Byte := w.extractLsb' 0 8

/-- `i` when the parts of the word that must be zero are zero (R74), else the refusal. -/
def whenZero (mustBeZero : Bool) (i : Instr) : Except DecodeRefusal Instr :=
  if mustBeZero then .ok i else .error .illegalEncoding

/-- The command of a word whose `RSVD` is zero, by its opcode (R75); every other opcode is reserved (R76). -/
def decodeOpcode (w : CommandWord) : Except DecodeRefusal Instr :=
  if opcOf w = 0x01#8 then .ok (.init (slotA w) (slotB w) (slotC w))
  else if opcOf w = 0x02#8 then whenZero (slotB w == 0#32) (.setpx (slotA w) (slotC w))
  else if opcOf w = 0x03#8 then
    whenZero (slotB w == 0#32 && topOfC w == 0#8) (.setrgb (slotA w) (component1 w) (component2 w) (component3 w))
  else if opcOf w = 0x04#8 then
    whenZero (slotB w == 0#32 && topOfC w == 0#8) (.sethsv (slotA w) (component1 w) (component2 w) (component3 w))
  else if opcOf w = 0x05#8 then .ok (.fill (slotA w) (slotB w) (slotC w))
  else if opcOf w = 0x06#8 then whenZero (slotA w == 0#32 && slotB w == 0#32 && slotC w == 0#32) .clear
  else if opcOf w = 0x07#8 then whenZero (slotA w == 0#32 && slotB w == 0#32 && slotC w == 0#32) .showFrame
  else if opcOf w = 0x08#8 then whenZero (slotB w == 0#32 && slotC w == 0#32) (.getpx (slotA w))
  else if opcOf w = 0x09#8 then
    whenZero (slotA w == 0#32 && slotB w == 0#32 && topOfC w == 0#8)
      (.rgb2pk (component1 w) (component2 w) (component3 w))
  else if opcOf w = 0x0A#8 then
    whenZero (slotA w == 0#32 && slotB w == 0#32 && topOfC w == 0#8)
      (.hsv2pk (component1 w) (component2 w) (component3 w))
  else .error .illegalEncoding

/-- The decoder, total on 128-bit words (R78); a nonzero `RSVD` refuses the word (R73). -/
def decode (w : CommandWord) : Except DecodeRefusal Instr :=
  if rsvdOf w = 0#24 then decodeOpcode w else .error .illegalEncoding

/-- The opcode of a command (R75). -/
def opcode : Instr → Byte
  | .init _ _ _ => 0x01#8
  | .setpx _ _ => 0x02#8
  | .setrgb _ _ _ _ => 0x03#8
  | .sethsv _ _ _ _ => 0x04#8
  | .fill _ _ _ => 0x05#8
  | .clear => 0x06#8
  | .showFrame => 0x07#8
  | .getpx _ => 0x08#8
  | .rgb2pk _ _ _ => 0x09#8
  | .hsv2pk _ _ _ => 0x0A#8

/-- `{OPC, RSVD = 0, A, B, C}` (R70, R73). -/
def commandWord (opc : Byte) (a b c : Slot) : CommandWord := opc ++ (0#24 ++ (a ++ (b ++ c)))

/-- `{0x00, x, y, z}`: three components in slot C, in argument order (R77, R90). -/
def componentsWord (x y z : Byte) : Slot := 0#8 ++ (x ++ (y ++ z))

/-- The encoder (R75, R90): a slot a command does not use is zero (R74). -/
def encode (i : Instr) : CommandWord :=
  match i with
  | .init pin bus freq => commandWord 0x01#8 pin bus freq
  | .setpx index color => commandWord 0x02#8 index 0#32 color
  | .setrgb index r g b => commandWord 0x03#8 index 0#32 (componentsWord r g b)
  | .sethsv index hue sat val => commandWord 0x04#8 index 0#32 (componentsWord hue sat val)
  | .fill first cnt color => commandWord 0x05#8 first cnt color
  | .clear => commandWord 0x06#8 0#32 0#32 0#32
  | .showFrame => commandWord 0x07#8 0#32 0#32 0#32
  | .getpx index => commandWord 0x08#8 index 0#32 0#32
  | .rgb2pk r g b => commandWord 0x09#8 0#32 0#32 (componentsWord r g b)
  | .hsv2pk hue sat val => commandWord 0x0A#8 0#32 0#32 (componentsWord hue sat val)

/-- One row of the opcode map as the table writes it: the word of a row is any word `w` with
`w &&& mask = value` (R78; opcode_table.json, whose `match` is `value` here). -/
structure OpcodeRow where
  opc : Byte
  mask : CommandWord
  value : CommandWord
  deriving DecidableEq, Repr

/-- The ten rows of opcode_table.json, in its order. -/
def opcodeTable : List OpcodeRow :=
  [ { opc := 0x01#8, mask := 0xFFFFFFFF_00000000_00000000_00000000#128, value := 0x01000000_00000000_00000000_00000000#128 },
    { opc := 0x02#8, mask := 0xFFFFFFFF_00000000_FFFFFFFF_00000000#128, value := 0x02000000_00000000_00000000_00000000#128 },
    { opc := 0x03#8, mask := 0xFFFFFFFF_00000000_FFFFFFFF_FF000000#128, value := 0x03000000_00000000_00000000_00000000#128 },
    { opc := 0x04#8, mask := 0xFFFFFFFF_00000000_FFFFFFFF_FF000000#128, value := 0x04000000_00000000_00000000_00000000#128 },
    { opc := 0x05#8, mask := 0xFFFFFFFF_00000000_00000000_00000000#128, value := 0x05000000_00000000_00000000_00000000#128 },
    { opc := 0x06#8, mask := 0xFFFFFFFF_FFFFFFFF_FFFFFFFF_FFFFFFFF#128, value := 0x06000000_00000000_00000000_00000000#128 },
    { opc := 0x07#8, mask := 0xFFFFFFFF_FFFFFFFF_FFFFFFFF_FFFFFFFF#128, value := 0x07000000_00000000_00000000_00000000#128 },
    { opc := 0x08#8, mask := 0xFFFFFFFF_00000000_FFFFFFFF_FFFFFFFF#128, value := 0x08000000_00000000_00000000_00000000#128 },
    { opc := 0x09#8, mask := 0xFFFFFFFF_FFFFFFFF_FFFFFFFF_FF000000#128, value := 0x09000000_00000000_00000000_00000000#128 },
    { opc := 0x0A#8, mask := 0xFFFFFFFF_FFFFFFFF_FFFFFFFF_FF000000#128, value := 0x0A000000_00000000_00000000_00000000#128 } ]

/-- The command word whose low `nbits` bits are those of `w` and whose other bits are zero (log 21). -/
def tableWord (nbits w : Nat) : CommandWord := BitVec.ofNat 128 (w % 2 ^ nbits)

/-- The instruction the decoder reads from the word with bits `w`, numbered as the opcode table numbers them: the word
is the command word itself, bit 0 its least significant bit (R9, R70). -/
def decodeTableWord (nbits w : Nat) : Option Instr :=
  match decode (tableWord nbits w) with
  | .ok i => some i
  | .error _ => none

end Sys2Proof
end

