-- ==== Sys2Proof/Config.lean ====
section
/-! DEFINITION. The parameters of the model (spec 00_scope.md R7, R8) and its free values. An OPEN parameter is an opaque
constant with no body: nothing proved here rests on a value of it. The bounds of R8 hold by construction, and every
well-formed choice of parameters is one these constants admit (log 1, log 2). -/

namespace Sys2Proof

/-- `BACKING`: whether the block allocates its own slots or looks at a host buffer (R7, R52). -/
inductive Backing where
  | owned
  | borrowed
  deriving DecidableEq, Repr, Inhabited

/-- `HOST_ENDIAN`: the byte order of a slot in the host's view of a borrowed buffer (R7, R57).
DESIGN CHOICE (log 14), unsafe: only the two usual orders. -/
inductive Endian where
  | little
  | big
  deriving DecidableEq, Repr, Inhabited

/-- The allocator's answer (00_scope.md R11). -/
inductive AllocAnswer where
  | ok
  | fail
  deriving DecidableEq, Repr, Inhabited

/-- The transport's answer to one request (R11). -/
inductive TransportAnswer where
  | ok
  | error
  deriving DecidableEq, Repr, Inhabited

/-- The implementation parameters of R7 that a configuration fixes. -/
structure Params where
  /-- `N`. -/
  count : Nat
  backing : Backing
  /-- How many slots the host buffer holds when the store is borrowed (R8). -/
  hostSlots : Nat
  sym1 : Byte
  sym0 : Byte
  maxCount : Nat
  maxTransferBytes : Nat
  wireMsbFirst : Bool
  hostEndian : Endian
  deriving DecidableEq, Repr

/-- `N - 1`: R8 asks only for `N >= 1`. -/
opaque Config.countLessOne : Nat

/-- `BACKING`. -/
opaque Config.backing : Backing

/-- The slots a borrowed buffer holds beyond the first `N` (R8: at least `N` slots). -/
opaque Config.hostSlotsBeyond : Nat

/-- What the host's buffer holds at reset, slot by slot (R39: "the host buffer's contents"). -/
opaque Config.hostBuffer : Nat → Slot

/-- `SYM0` (R170), value lost in the source (N1). -/
opaque Config.sym0 : Byte

/-- The byte `SYM1` is taken from; see `Config.sym1`. -/
opaque Config.sym1Source : Byte

/-- `MAX_COUNT - N` (R8: `N <= MAX_COUNT`). -/
opaque Config.countsBeyond : Nat

/-- `MAX_TRANSFER_BYTES - (24 N + 1)` (R8: `24 N + 1 <= MAX_TRANSFER_BYTES`). -/
opaque Config.transferBytesBeyond : Nat

/-- `WIRE_MSB_FIRST` (R56); only the line signal of R179 reads it. -/
opaque Config.wireMsbFirst : Bool

/-- `HOST_ENDIAN` (R57). -/
opaque Config.hostEndian : Endian

/-- The part of `HSVF` that the laws of R145 leave open (log 3). -/
opaque Config.hsvOpen : Byte → Byte → Byte → Byte × Byte × Byte

/-- What slot `i` would give a reader while it holds no value (93_implementation_defined.md I4, I16: any value, never
read). Every reader faults instead (log 10), so no next state depends on it. -/
opaque Config.unwrittenSlot : Nat → Slot

/-- The allocator's draws after reset, one a request, `none` for a request that is never answered (R11; log 4). -/
opaque Config.allocDraws : List (Option AllocAnswer)

/-- The transport's draws after reset, one a request, `none` for a request that is never answered (R11; log 4). -/
opaque Config.transportDraws : List (Option TransportAnswer)

/-- `SYM1` (R170): any byte but `SYM0` (R8). The source byte itself, unless it is `SYM0`; every admitted pair is reached. -/
def Config.sym1 : Byte :=
  if Config.sym1Source = Config.sym0 then ~~~ Config.sym0 else Config.sym1Source

/-- The configuration the machine is built with. -/
def Config.params : Params :=
  { count := Config.countLessOne + 1
    backing := Config.backing
    hostSlots := Config.countLessOne + 1 + Config.hostSlotsBeyond
    sym1 := Config.sym1
    sym0 := Config.sym0
    maxCount := Config.countLessOne + 1 + Config.countsBeyond
    maxTransferBytes := 24 * (Config.countLessOne + 1) + 1 + Config.transferBytesBeyond
    wireMsbFirst := Config.wireMsbFirst
    hostEndian := Config.hostEndian }

/-- `MAX_TRANSFER_BYTES`, sent with bus-initialise (R103). -/
def Config.maxTransferBytes : Nat := Config.params.maxTransferBytes

/-- `MARKER` (R7, R170). -/
def Config.marker : Byte := 0x00#8

/-- `FREQ_DEFAULT` in Hz (R7); the assembler supplies it, not the hardware (R28, R91). -/
def Config.freqDefault : Nat := 8000000

end Sys2Proof
end

