-- ==== Sys2Proof/WellFormed.lean ====
section
/-! DEFINITION. Well-formedness of a configuration (spec 00_scope.md R8), one named check per bound. A command needs no
check of its own: every operand of `Instr` is a bit vector exactly as wide as its field (R71, R72, R77), so a command
that does not fit cannot be written; the operands of an assembler line are checked in Machine/Assembler.lean (R90). -/

namespace Sys2Proof

/-- `N >= 1`. -/
def Params.countPositive (p : Params) : Bool := decide (1 ≤ p.count)

/-- `N <= MAX_COUNT`. -/
def Params.countSupported (p : Params) : Bool := decide (p.count ≤ p.maxCount)

/-- `24 N + 1 <= MAX_TRANSFER_BYTES`. -/
def Params.frameFits (p : Params) : Bool := decide (24 * p.count + 1 ≤ p.maxTransferBytes)

/-- `SYM1 != SYM0`. -/
def Params.symbolsDiffer (p : Params) : Bool := decide (p.sym1 ≠ p.sym0)

/-- When the store is borrowed, the host buffer holds at least `N` slots. -/
def Params.bufferLargeEnough (p : Params) : Bool :=
  match p.backing with
  | .owned => true
  | .borrowed => decide (p.count ≤ p.hostSlots)

/-- R8: a configuration is well formed when all of its bounds hold. -/
def Params.wf (p : Params) : Bool :=
  p.countPositive && p.countSupported && p.frameFits && p.symbolsDiffer && p.bufferLargeEnough

end Sys2Proof
end

