-- ==== Sys2Proof/Machine/State.lean ====
section
/-! DEFINITION. The state of the block (spec 10_state.md R20 to R41), its value after reset (R39, R230), and the reasons
a step can stop. State is plain data. -/

namespace Sys2Proof.Machine

/-- `PHASE` (R23). -/
inductive Phase where
  | unready
  | ready
  | halted
  deriving DecidableEq, Repr

/-- `HANDLE` (R29): the transport handle. -/
inductive Handle where
  | none
  | session
  deriving DecidableEq, Repr

/-- The fault reasons the block records in `FAULT` (R33, 60_exceptions.md R201). -/
inductive FaultReason where
  | transportBusInit
  | transportAttach
  | transportTx
  | notReady
  | readOor
  deriving DecidableEq, Repr

/-- The requests the block makes of its environment (R36, R37). -/
inductive Request where
  | alloc
  | busInit
  | deviceAttach
  | transmit
  deriving DecidableEq, Repr

/-- The status of a response (30_encoding.md R80): there is no other. -/
inductive Status where
  | ok
  | errBounds
  | errAlloc
  deriving DecidableEq, Repr

/-- The events of the history (R31). A request carries its answer, `none` when it is never answered (log 17). -/
inductive Event where
  /-- `Alloc(N)`. -/
  | alloc (slots : Nat) (answer : Option AllocAnswer)
  /-- `BusInit(pin, bus, max_transfer_bytes, unused_lines_disabled)`. -/
  | busInit (pin bus : Slot) (maxTransferBytes : Nat) (unusedLinesDisabled : Bool) (answer : Option TransportAnswer)
  /-- `DeviceAttach(bus, freq_hz, dma_enabled)`. -/
  | deviceAttach (bus freq : Slot) (dmaEnabled : Bool) (answer : Option TransportAnswer)
  /-- `Transmit(bit_length, bytes)` on a handle (42_encoder.md R174). -/
  | transmit (handle : Handle) (bitLength : Nat) (bytes : List Byte) (answer : Option TransportAnswer)
  /-- `Resp(opcode, status, data)`. -/
  | resp (opcode : Byte) (status : Status) (data : Slot)
  deriving DecidableEq, Repr

/-- What the host does next (00_scope.md R4; log 5). -/
inductive HostMove where
  /-- Present a command word on the command port (R35). -/
  | issue (word : CommandWord)
  /-- Write slot `index` of the borrowed buffer directly (R38). -/
  | writeSlot (index : Nat) (value : Slot)
  /-- Write one byte of the borrowed buffer directly, at a byte address counted from the buffer's start (R57). -/
  | writeByte (address : Nat) (value : Byte)
  /-- Reset the block (70_reset_and_hazards.md R230), which it may at any time: the only way out of Halted. -/
  | reset
  deriving DecidableEq, Repr

/-- Cells in rising order of address. An address that is not listed holds no value (R40; log 9). -/
abbrev Memory (α : Type) := List (Nat × α)

/-- Why a step is no next state and no refusal. -/
inductive Fault where
  /-- The block is halted and takes no step on any command (60_exceptions.md R200, R207). Raised by every command and by
  every direct host write in phase Halted. Safe. -/
  | halted (reason : Option FaultReason)
  /-- The block waits for ever for the answer to `request` and accepts nothing (R205); the spec's "stuck", which is not
  one of its faults. Raised by every step of a waiting block but a reset. Safe. -/
  | stuck (request : Request)
  /-- A read of slot `index` while it holds no value (10_state.md R40). Raised by GETPX, SHOW and a bytewise host write,
  in no state that meets the invariant. Safe. -/
  | slotWithoutValue (index : Nat)
  deriving DecidableEq, Repr

/-- Why a command or a host move has no meaning (60_exceptions.md R202). -/
inductive Refusal where
  /-- An instruction the model does not cover. Raised by no arm of `exec`. Safe. -/
  | notModelled (mnemonic : String)
  /-- `ILLEGAL_ENCODING` (30_encoding.md R73, R74, R76). Raised by `step` on a word that decodes to nothing. Safe. -/
  | illegalEncoding
  /-- `REINIT` (40_pixel_store.md R105). Raised by INIT in phase Ready. Safe. -/
  | reinit
  /-- `FILL_OVERFLOW` (40_pixel_store.md R122). Raised by FILL. Safe. -/
  | fillOverflow
  /-- A direct host access to an owned store, a move the spec does not give the host (10_state.md R38). Raised by the
  host's direct writes. Safe. -/
  | hostAccessNotBorrowed
  deriving DecidableEq, Repr

/-- The state of the block (R39), and its environment's inputs. -/
structure State where
  /-- `PHASE`, R23. -/
  phase : Phase
  /-- `ALLOCATED`, R24. -/
  allocated : Bool
  /-- `COUNT`, R25. -/
  count : Nat
  /-- `BACKING`, R25. -/
  backing : Backing
  /-- `CFG_PIN`, R26; `none` is the spec's "holds no value". -/
  cfgPin : Option Slot
  /-- `CFG_BUS`, R27. -/
  cfgBus : Option Slot
  /-- `CFG_FREQ`, R28. -/
  cfgFreq : Option Slot
  /-- `HANDLE`, R29. -/
  handle : Handle
  /-- The Pixel Store `P`, R30. -/
  pix : Memory Slot
  /-- The scratch buffer `S`, R32, R53. -/
  scratch : List Host.Cell
  /-- `FAULT`, R33. -/
  fault : Option FaultReason
  /-- `REFUSED`, R34. -/
  refused : Bool
  /-- The event history, oldest first, R31. -/
  history : List Event
  /-- The request that is never answered, while the block waits on it, 60_exceptions.md R205 (log 7). -/
  waiting : Option Request
  /-- Input: the host's moves to come, next first (log 5). -/
  host : List HostMove
  /-- Input: the allocator's draws to come, one a request, `none` for no answer (log 4). -/
  allocAnswers : List (Option AllocAnswer)
  /-- Input: the transport's draws to come, one a request, `none` for no answer (log 4). -/
  transportAnswers : List (Option TransportAnswer)
  deriving DecidableEq, Repr

/-- The state after reset with given parameters, host buffer and draws of the environment (70_reset_and_hazards.md R230;
R39; 00_scope.md R11). -/
def State.resetOf (p : Params) (hostBuffer : Nat → Slot) (allocDraws : List (Option AllocAnswer))
    (transportDraws : List (Option TransportAnswer)) : State :=
  { phase := .unready
    allocated := match p.backing with
      | .owned => false
      | .borrowed => true
    count := p.count
    backing := p.backing
    cfgPin := none
    cfgBus := none
    cfgFreq := none
    handle := .none
    pix := match p.backing with
      | .owned => []
      | .borrowed => (List.range p.count).map fun i => (i, hostBuffer i)
    scratch := []
    fault := none
    refused := false
    history := []
    waiting := none
    host := []
    allocAnswers := allocDraws
    transportAnswers := transportDraws }

/-- Construction: an ill-formed configuration has no initial state (00_scope.md R8). -/
def State.construct (p : Params) (hostBuffer : Nat → Slot) (allocDraws : List (Option AllocAnswer))
    (transportDraws : List (Option TransportAnswer)) : Option State :=
  if p.wf then some (State.resetOf p hostBuffer allocDraws transportDraws) else none

/-- The machine right after reset: nothing is known of the draws, so each answer of R11 may come (log 4). -/
def State.reset : State :=
  State.resetOf Config.params Config.hostBuffer Config.allocDraws Config.transportDraws

end Sys2Proof.Machine
end

