-- ==== Sys2Proof/Machine/Ops.lean ====
section
/-! DEFINITION. The named operations over memory and registers, the acceptance of a command, taking a fault, and the
requests the block makes of its environment. -/

namespace Sys2Proof.Machine

/-- The value an address holds, `none` for no value. -/
def Memory.read {α : Type} : Memory α → Nat → Option α
  | [], _ => none
  | (k, v) :: m, a => if a = k then some v else Memory.read m a

/-- `M[a] <- v`, keeping the rising order. -/
def Memory.write {α : Type} : Memory α → Nat → α → Memory α
  | [], a, v => [(a, v)]
  | (k, x) :: m, a, v =>
    if a < k then (a, v) :: (k, x) :: m
    else if a = k then (a, v) :: m
    else (k, x) :: Memory.write m a v

/-- `M[base], M[base + 1], ... <-` the values of a list. -/
def Memory.writeFrom {α : Type} : Memory α → Nat → List α → Memory α
  | m, _, [] => m
  | m, base, v :: vs => Memory.writeFrom (Memory.write m base v) (base + 1) vs

/-- `M[first .. first + len - 1] <- v`. -/
def Memory.fill {α : Type} (m : Memory α) (first len : Nat) (v : α) : Memory α :=
  Memory.writeFrom m first (List.replicate len v)

/-- The canonical form: addresses strictly rising. An unlisted address holds no value, so no listed cell equals it. -/
abbrev Memory.wf {α : Type} (m : Memory α) : Prop := m.Pairwise fun x y => x.1 < y.1

/-- Every listed address is below `n`. -/
abbrev Memory.below {α : Type} (m : Memory α) (n : Nat) : Prop := ∀ c ∈ m, c.1 < n

/-- `emit E` (00_scope.md R10, 10_state.md R31): the block only appends. -/
def State.emit (s : State) (e : Event) : State := { s with history := s.history ++ [e] }

/-- TAKING A FAULT (60_exceptions.md R200, R206): `PHASE <- Halted`, `FAULT <- reason`, no response, and everything done
before it is kept. There is no return from it but reset (R207). -/
def State.halt (s : State) (reason : FaultReason) : State := { s with phase := .halted, fault := some reason }

/-- The block waits for ever for the answer to a request (60_exceptions.md R205). -/
def State.waitFor (s : State) (request : Request) : State := { s with waiting := some request }

/-- `P <- m`. -/
def State.setPix (s : State) (m : Memory Slot) : State := { s with pix := m }

/-- `S <- m`. -/
def State.setScratch (s : State) (m : List Host.Cell) : State := { s with scratch := m }

/-- `CFG_PIN <- pin; CFG_BUS <- bus; CFG_FREQ <- freq` (40_pixel_store.md R101). -/
def State.setConfig (s : State) (pin bus freq : Slot) : State :=
  { s with cfgPin := some pin, cfgBus := some bus, cfgFreq := some freq }

/-- `HANDLE <- Session` (R101). -/
def State.attach (s : State) : State := { s with handle := .session }

/-- `PHASE <- Ready` (R101). -/
def State.enterReady (s : State) : State := { s with phase := .ready }

/-- `ALLOCATED <- 1`: the slots exist and hold no value (40_pixel_store.md R101, R102; log 23). -/
def State.backStore (s : State) : State := { s with allocated := true, pix := [] }

/-- The draw for the request `k` from now, `none` where it is never answered; a list that has ended gives no answer
(00_scope.md R11; log 4). -/
def drawAt {α : Type} (draws : List (Option α)) (k : Nat) : Option α := draws.getD k none

/-- The allocator's draw for its request `k` from now. -/
abbrev State.allocAnswer (s : State) (k : Nat) : Option AllocAnswer := drawAt s.allocAnswers k

/-- The transport's draw for its request `k` from now. -/
abbrev State.transportAnswer (s : State) (k : Nat) : Option TransportAnswer := drawAt s.transportAnswers k

/-- The allocator's first draw has been taken. -/
def State.dropAllocAnswer (s : State) : State := { s with allocAnswers := s.allocAnswers.tail }

/-- The transport's first draw has been taken. -/
def State.dropTransportAnswer (s : State) : State := { s with transportAnswers := s.transportAnswers.tail }

/-- The host has made its first move. -/
def State.dropHostMove (s : State) : State := { s with host := s.host.tail }

/-- RESET of a block that has run (70_reset_and_hazards.md R230, R232; 10_state.md R39): every piece of the block's state at
its reset value, COUNT and BACKING as constructed, a borrowed store with what the host's buffer holds now. What is outside
the block is as it was: the host's moves, and the draws to come, so the answer to a request made after a reset, one that
ends a wait too, is the next draw, free as every draw is (R232; 00_scope.md R11; log 4, log 25). -/
def State.restart (s : State) : State :=
  { s with
    phase := .unready
    allocated := match s.backing with
      | .owned => false
      | .borrowed => true
    cfgPin := none
    cfgBus := none
    cfgFreq := none
    handle := .none
    pix := match s.backing with
      | .owned => []
      | .borrowed => s.pix
    scratch := []
    fault := none
    refused := false
    history := []
    waiting := none }

/-- `P[i] <- 0x00000000` for every `i < N` (40_pixel_store.md R104, R125). -/
def State.clearStore (s : State) : State := s.setPix (Memory.fill s.pix 0 s.count 0#32)

/-- The first slot below `N` that holds no value. -/
def State.firstUnvalued (s : State) : Option Nat :=
  (List.range s.count).find? fun i => (Memory.read s.pix i).isNone

/-- What a slot's reader gets; a slot that holds no value gives a free value (log 10). -/
def State.slotValue (s : State) (i : Nat) : Slot := (Memory.read s.pix i).getD (Config.unwrittenSlot i)

/-- `P[0], ..., P[N-1]` in index order (20_memory.md R55, R64). -/
def State.pixels (s : State) : List Slot := (List.range s.count).map s.slotValue

/-- What acceptance asks of a command (40_pixel_store.md R100). -/
inductive CommandClass where
  /-- INIT. -/
  | initialisation
  /-- SETPX, SETRGB, SETHSV, FILL, CLEAR, SHOW, GETPX. -/
  | store
  /-- RGB2PK, HSV2PK. -/
  | conversion
  deriving DecidableEq, Repr

/-- `accept(op)` (40_pixel_store.md R100), before a command's own pseudocode `body`. A waiting block accepts no command
(60_exceptions.md R205) and a halted one takes no step (R200); INIT in Ready is refused; a store or transmit command in
Unready faults NOT_READY. -/
def accept (c : CommandClass) (s : State) (body : Host.Outcome State Fault Refusal) :
    Host.Outcome State Fault Refusal :=
  match s.waiting with
  | some request => .fault (.stuck request)
  | none =>
    match s.phase, c with
    | .halted, _ => .fault (.halted s.fault)
    | .ready, .initialisation => .refused .reinit
    | .unready, .store => .next (s.halt .notReady)
    | _, _ => body

/-- One request to the allocator (10_state.md R37; 40_pixel_store.md R102): `a <- draw {OK, FAIL}; emit Alloc(N) answered
a`, then `onFail` or `onOk`; where the draw is no answer, the block waits for ever. -/
def State.askAllocator (s : State) (onFail onOk : State → State) : State :=
  let t := s.dropAllocAnswer.emit (.alloc s.count (s.allocAnswer 0))
  match s.allocAnswer 0 with
  | none => t.waitFor .alloc
  | some .fail => onFail t
  | some .ok => onOk t

/-- One request to the transport (10_state.md R36): `x <- draw {OK, ERROR}`, the event with its answer, a fault on ERROR
(40_pixel_store.md R103, 42_encoder.md R176), else go on; where the draw is no answer, the block waits for ever. -/
def State.askTransport (s : State) (request : Request) (reason : FaultReason)
    (event : Option TransportAnswer → Event) (onOk : State → State) : State :=
  let t := s.dropTransportAnswer.emit (event (s.transportAnswer 0))
  match s.transportAnswer 0 with
  | none => t.waitFor request
  | some .error => t.halt reason
  | some .ok => onOk t

/-- The state a run stands in after a step (60_exceptions.md R202): a refusal sets `REFUSED` and takes no step for the
command; a halted or waiting block stands where it is (log 8). -/
def settle (s : State) : Host.Outcome State Fault Refusal → State
  | .next t => t
  | .fault _ => s
  | .refused _ => { s with refused := true }

end Sys2Proof.Machine
end

