-- ==== Sys2Proof/Machine/Flags.lean ====
section
/-! DEFINITION. The block has no flags (spec 10_state.md R22). What a command leaves for the host in their place is its
response: a status and a data word (30_encoding.md R79 to R81). -/

namespace Sys2Proof.Machine

/-- The status codes (30_encoding.md R80). -/
def Status.code : Status → Byte
  | .ok => 0x00#8
  | .errBounds => 0x01#8
  | .errAlloc => 0x02#8

/-- The numbers of the fault reasons (60_exceptions.md R201). -/
def FaultReason.code : FaultReason → Nat
  | .transportBusInit => 1
  | .transportAttach => 2
  | .transportTx => 3
  | .notReady => 4
  | .readOor => 5

/-- `respond(status, data)` of the command with opcode `opc`: the response is its `Resp` event (R79; 10_state.md R31). -/
def State.respond (s : State) (opc : Byte) (status : Status) (data : Slot) : State :=
  s.emit (.resp opc status data)

end Sys2Proof.Machine
end

