-- ==== Sys2Proof/Machine/Operands.lean ====
section
/-! DEFINITION. The operand forms: a slot index, and the range of a fill (spec 30_encoding.md R72; 40_pixel_store.md
R110, R121). -/

namespace Sys2Proof.Machine

/-- `index < N`, compared as unbounded naturals (30_encoding.md R72). -/
def State.inStore (s : State) (index : Slot) : Bool := decide (index.toNat < s.count)

/-- `fill_end(first, cnt)` for a store of `n` slots; `none` is its refusal FILL_OVERFLOW (40_pixel_store.md R121, R122). -/
def fillEnd (n : Nat) (first cnt : Slot) : Option Nat :=
  if cnt = 0#32 then some n
  else if first.toNat + cnt.toNat ≥ 2 ^ 32 then none
  else some (min (first.toNat + cnt.toNat) n)

/-- The write of one slot shared by SETPX, SETRGB and SETHSV, which "convert then delegate to the packed-color setter"
(R110, R111, R115, R117): a bad index responds ERR_BOUNDS and writes nothing. -/
def State.writeSlot (s : State) (opc : Byte) (index color : Slot) : State :=
  if s.inStore index then (s.setPix (Memory.write s.pix index.toNat color)).respond opc .ok 0#32
  else s.respond opc .errBounds 0#32

end Sys2Proof.Machine
end

