-- ==== Sys2Proof/Machine/Color.lean ====
section
/-! DEFINITION. Color conversion (spec 41_color_conversion.md R140 to R148): packing, HSV, and the commands RGB2PK and
HSV2PK. -/

namespace Sys2Proof.Machine

/-- `pack(r, g, b) = zext_32((g << 16) | (r << 8) | b)` (R140). -/
def pack (r g b : Byte) : Slot :=
  (g.setWidth 32 <<< 16) ||| (r.setWidth 32 <<< 8) ||| b.setWidth 32

/-- `g = c[23:16]` (20_memory.md R51, R142). -/
def greenOf (c : Slot) : Byte := c.extractLsb' 16 8

/-- `r = c[15:8]` (R51, R142). -/
def redOf (c : Slot) : Byte := c.extractLsb' 8 8

/-- `b = c[7:0]` (R51, R142). -/
def blueOf (c : Slot) : Byte := c.extractLsb' 0 8

/-- `region(hue) = floor(hue / 43)` (R143). -/
def region (hue : Byte) : Nat := hue.toNat / 43

/-- The sector of a hue: its region when that is 0 to 4, else 5 (R143). -/
def sector (hue : Byte) : Nat := if region hue ≤ 4 then region hue else 5

/-- `HSVF`, the configuration function (R144, R145): L1 and L2 fix it where `sat` or `val` is 0, and it is open elsewhere
(log 3). -/
def hsvf (hue sat val : Byte) : Byte × Byte × Byte :=
  if sat = 0#8 then (val, val, val)
  else if val = 0#8 then (0#8, 0#8, 0#8)
  else Config.hsvOpen hue sat val

/-- `hsvToPacked(hue, sat, val)` (R144). -/
def hsvToPacked (hue sat val : Byte) : Slot :=
  match hsvf hue sat val with
  | (r, g, b) => pack r g b

/-- `rem` of the reference routine (R147). -/
def hsvRem (hue : Byte) : Nat := (hue.toNat - region hue * 43) * 6

/-- `p` of the reference routine (R147). -/
def hsvP (sat val : Byte) : Nat := (val.toNat * (255 - sat.toNat)) >>> 8

/-- `q` of the reference routine (R147). -/
def hsvQ (hue sat val : Byte) : Nat := (val.toNat * (255 - ((sat.toNat * hsvRem hue) >>> 8))) >>> 8

/-- `t` of the reference routine (R147). -/
def hsvT (hue sat val : Byte) : Nat := (val.toNat * (255 - ((sat.toNat * (255 - hsvRem hue)) >>> 8))) >>> 8

/-- The sector table of the reference routine on naturals (R147). -/
def hsvRefNat (hue sat val : Byte) : Nat × Nat × Nat :=
  if sat = 0#8 then (val.toNat, val.toNat, val.toNat)
  else
    match region hue with
    | 0 => (val.toNat, hsvT hue sat val, hsvP sat val)
    | 1 => (hsvQ hue sat val, val.toNat, hsvP sat val)
    | 2 => (hsvP sat val, val.toNat, hsvT hue sat val)
    | 3 => (hsvP sat val, hsvQ hue sat val, val.toNat)
    | 4 => (hsvT hue sat val, hsvP sat val, val.toNat)
    | _ => (val.toNat, hsvP sat val, hsvQ hue sat val)

/-- `HSVF_ref` (R147). PRESUMED (log 24), unsafe if read as the hardware's: the spec gives it from general knowledge, so
no command of the machine uses it; it is one function `HSVF` may be. -/
def hsvRef (hue sat val : Byte) : Byte × Byte × Byte :=
  match hsvRefNat hue sat val with
  | (r, g, b) => (BitVec.ofNat 8 r, BitVec.ofNat 8 g, BitVec.ofNat 8 b)

/-- RGB2PK (R141). -/
def execRgb2pk (r g b : Byte) (s : State) : Host.Outcome State Fault Refusal :=
  accept .conversion s (.next (s.respond 0x09#8 .ok (pack r g b)))

/-- HSV2PK (R144). -/
def execHsv2pk (hue sat val : Byte) (s : State) : Host.Outcome State Fault Refusal :=
  accept .conversion s (.next (s.respond 0x0A#8 .ok (hsvToPacked hue sat val)))

end Sys2Proof.Machine
end

