-- ==== Sys2Proof/Machine/Encoder.lean ====
section
/-! DEFINITION. The waveform encoder and transmitter (spec 42_encoder.md R170 to R179) and the command SHOW. -/

namespace Sys2Proof.Machine

/-- `sym(bit)` (R171), for given symbol-bytes. -/
def symOf (sym1 sym0 : Byte) (bit : Bool) : Byte := if bit then sym1 else sym0

/-- The 24 symbol-bytes of one slot: bit 23 first, bit 0 last; bits `[31:24]` are not read (R171). -/
def slotSymbols (sym1 sym0 : Byte) (p : Slot) : List Byte :=
  (List.range 24).map fun j => symOf sym1 sym0 (p.getLsbD (23 - j))

/-- `Enc(P)` (R171), for given symbol-bytes: the marker, then the symbols of every pixel in index order. -/
def encWith (sym1 sym0 : Byte) (pixels : List Slot) : List Byte :=
  Config.marker :: pixels.flatMap (slotSymbols sym1 sym0)

/-- `Enc(P)` with the machine's symbol-bytes (R170, R171). -/
def enc (pixels : List Slot) : List Byte := encWith Config.sym1 Config.sym0 pixels

/-- The 8 line bits of one byte in the order the transport shifts them (20_memory.md R56). -/
def byteLineBits (msbFirst : Bool) (b : Byte) : List Bool :=
  (List.range 8).map fun k => b.getLsbD (if msbFirst then 7 - k else k)

/-- The line signal of a request: its bytes in order, one bit per clock period (R179, informative; log 20). -/
def lineBits (msbFirst : Bool) (bytes : List Byte) : List Bool := bytes.flatMap (byteLineBits msbFirst)

/-- `Transmit()` (R174), used by SHOW and by INIT: fill the scratch buffer, make one blocking request on the handle, and
go on with `onOk`, the scratch buffer then holding no value, or fault TRANSPORT_TX, or wait for ever. -/
def State.transmit (s : State) (onOk : State → State) : State :=
  (s.setScratch (Memory.writeFrom s.scratch 0 (enc s.pixels))).askTransport .transmit .transportTx
    (fun a => .transmit s.handle (8 * (24 * s.count + 1)) (enc s.pixels) a)
    (fun t => onOk (t.setScratch []))

/-- SHOW (R173). A slot that holds no value stops it by name (10_state.md R40). -/
def execShowFrame (s : State) : Host.Outcome State Fault Refusal :=
  accept .store s
    (match s.firstUnvalued with
    | some i => .fault (.slotWithoutValue i)
    | none => .next (s.transmit fun t => t.respond 0x07#8 .ok 0#32))

end Sys2Proof.Machine
end

