-- ==== Sys2Proof/Machine/PixelStore.lean ====
section
/-! DEFINITION. The Pixel Store commands (spec 40_pixel_store.md): INIT, SETPX, SETRGB, SETHSV, FILL, CLEAR, GETPX. -/

namespace Sys2Proof.Machine

/-- The first part of INIT (R101, R102): an owned store that is not yet backed is allocated; a failed allocation responds
ERR_ALLOC and touches nothing else. -/
def State.ensureStore (s : State) (onOk : State → State) : State :=
  if s.allocated then onOk s
  else s.askAllocator (fun t => t.respond 0x01#8 .errAlloc 0#32) (fun t => onOk t.backStore)

/-- The last part of INIT (R104): clear the store, transmit once, enter phase Ready, respond OK. -/
def State.bringUp (s : State) : State :=
  s.clearStore.transmit fun t => t.enterReady.respond 0x01#8 .ok 0#32

/-- The transport part of INIT (R103): the `CFG_*` registers, bus-initialise, device-attach, then `bringUp`. -/
def State.configure (s : State) (pin bus freq : Slot) : State :=
  (s.setConfig pin bus freq).askTransport .busInit .transportBusInit
    (fun a => .busInit pin bus Config.maxTransferBytes true a) fun t =>
      t.askTransport .deviceAttach .transportAttach (fun a => .deviceAttach bus freq true a) fun u => u.attach.bringUp

/-- INIT after its acceptance (R101). -/
def State.initialise (s : State) (pin bus freq : Slot) : State :=
  s.ensureStore fun t => t.configure pin bus freq

/-- INIT (R101 to R105). -/
def execInit (pin bus freq : Slot) (s : State) : Host.Outcome State Fault Refusal :=
  accept .initialisation s (.next (s.initialise pin bus freq))

/-- SETPX (R110, R111): all 32 bits of the color are stored. -/
def execSetpx (index color : Slot) (s : State) : Host.Outcome State Fault Refusal :=
  accept .store s (.next (s.writeSlot 0x02#8 index color))

/-- SETRGB (R115). -/
def execSetrgb (index : Slot) (r g b : Byte) (s : State) : Host.Outcome State Fault Refusal :=
  accept .store s (.next (s.writeSlot 0x03#8 index (pack r g b)))

/-- SETHSV (R117). -/
def execSethsv (index : Slot) (hue sat val : Byte) (s : State) : Host.Outcome State Fault Refusal :=
  accept .store s (.next (s.writeSlot 0x04#8 index (hsvToPacked hue sat val)))

/-- FILL (R120 to R122): the slots `first .. fill_end - 1`, none when that range is empty. -/
def execFill (first cnt color : Slot) (s : State) : Host.Outcome State Fault Refusal :=
  accept .store s
    (match fillEnd s.count first cnt with
    | none => .refused .fillOverflow
    | some stop =>
      .next ((s.setPix (Memory.fill s.pix first.toNat (stop - first.toNat) color)).respond 0x05#8 .ok 0#32))

/-- CLEAR (R125). -/
def execClear (s : State) : Host.Outcome State Fault Refusal :=
  accept .store s (.next (s.clearStore.respond 0x06#8 .ok 0#32))

/-- GETPX (R130): an index beyond the store faults READ_OOR; a slot that holds no value stops it by name (10_state.md
R40). -/
def execGetpx (index : Slot) (s : State) : Host.Outcome State Fault Refusal :=
  accept .store s
    (if s.inStore index then
      match Memory.read s.pix index.toNat with
      | some v => .next (s.respond 0x08#8 .ok v)
      | none => .fault (.slotWithoutValue index.toNat)
    else .next (s.halt .readOor))

end Sys2Proof.Machine
end

