-- ==== Sys2Proof/Machine/Dispatch.lean ====
section
/-! DEFINITION. The meaning of every command, one arm per row of spec/opcode_table.json. -/

namespace Sys2Proof.Machine

def exec (i : Instr) (s : State) : Host.Outcome State Fault Refusal :=
  match i with
  | .init pin bus freq => Sys2Proof.Machine.execInit pin bus freq s
  | .setpx index color => Sys2Proof.Machine.execSetpx index color s
  | .setrgb index r g b => Sys2Proof.Machine.execSetrgb index r g b s
  | .sethsv index hue sat val => Sys2Proof.Machine.execSethsv index hue sat val s
  | .fill first cnt color => Sys2Proof.Machine.execFill first cnt color s
  | .clear => Sys2Proof.Machine.execClear s
  | .showFrame => Sys2Proof.Machine.execShowFrame s
  | .getpx index => Sys2Proof.Machine.execGetpx index s
  | .rgb2pk r g b => Sys2Proof.Machine.execRgb2pk r g b s
  | .hsv2pk hue sat val => Sys2Proof.Machine.execHsv2pk hue sat val s

end Sys2Proof.Machine
end

