-- ==== Sys2Proof/Machine/HostPort.lean ====
section
/-! DEFINITION. The host's direct access to a borrowed buffer (spec 10_state.md R38, 20_memory.md R57,
70_reset_and_hazards.md R242). -/

namespace Sys2Proof.Machine

/-- A direct host move on the buffer: only of a borrowed store (R38), only while the block is idle (R242): neither
waiting nor halted (log 13). -/
def hostAccess (s : State) (body : Host.Outcome State Fault Refusal) : Host.Outcome State Fault Refusal :=
  match s.waiting with
  | some request => .fault (.stuck request)
  | none =>
    match s.phase with
    | .halted => .fault (.halted s.fault)
    | _ =>
      match s.backing with
      | .owned => .refused .hostAccessNotBorrowed
      | .borrowed => body

/-- A direct write of slot `index`: "exactly as a SETPX of the same value would, without a bounds check and without a
response" (R38). A slot beyond the first `N` is no part of the Pixel Store (20_memory.md R52; log 13). -/
def hostWriteSlot (index : Nat) (value : Slot) (s : State) : Host.Outcome State Fault Refusal :=
  hostAccess s (.next (if index < s.count then s.setPix (Memory.write s.pix index value) else s))

/-- The bit position in a slot of its byte at offset `k`, 0 to 3, in the host's view (R57). -/
def byteShift (e : Endian) (k : Nat) : Nat :=
  match e with
  | .little => 8 * k
  | .big => 8 * (3 - k)

/-- The byte of a slot at offset `k` in the host's view (R57). -/
def slotByte (e : Endian) (v : Slot) (k : Nat) : Byte := v.extractLsb' (byteShift e k) 8

/-- A slot with its byte at offset `k` in the host's view replaced (R57). -/
def setSlotByte (e : Endian) (v : Slot) (k : Nat) (b : Byte) : Slot :=
  (v &&& ~~~ ((0xFF#32) <<< byteShift e k)) ||| (b.setWidth 32 <<< byteShift e k)

/-- A direct write of one byte, at byte address `address` of the buffer (R57; log 14). -/
def hostWriteByte (address : Nat) (value : Byte) (s : State) : Host.Outcome State Fault Refusal :=
  hostAccess s
    (if address / 4 < s.count then
      match Memory.read s.pix (address / 4) with
      | some v => .next (s.setPix (Memory.write s.pix (address / 4) (setSlotByte Config.hostEndian v (address % 4) value)))
      | none => .fault (.slotWithoutValue (address / 4))
    else .next s)

/-- What the host reads directly from slot `index` of a borrowed store, if that is a move it has (R38, 40_pixel_store.md
R131). Reading changes nothing (20_memory.md R60). -/
def hostReadSlot (s : State) (index : Nat) : Option Slot :=
  match s.waiting, s.phase, s.backing with
  | none, .unready, .borrowed => Memory.read s.pix index
  | none, .ready, .borrowed => Memory.read s.pix index
  | _, _, _ => none

/-- What the host reads directly from one byte of a borrowed store (R57). -/
def hostReadByte (s : State) (address : Nat) : Option Byte :=
  (hostReadSlot s (address / 4)).map fun v => slotByte Config.hostEndian v (address % 4)

end Sys2Proof.Machine
end

