-- ==== Sys2Proof/Machine/Step.lean ====
section
/-! DEFINITION. One step of the machine: the host's next move (spec 00_scope.md R3, R4; 10_state.md R35). Reset comes at
any time; every other move only when the block is idle (R35), so a waiting block is stuck before anything else is looked
at; then a word is decoded before anything else (60_exceptions.md R204). With no move to come the block stays idle (R215,
R231). -/

namespace Sys2Proof.Machine

/-- A block that waits for an answer takes no other step (60_exceptions.md R205). -/
def whenAnswered (s : State) (body : Host.Outcome State Fault Refusal) : Host.Outcome State Fault Refusal :=
  match s.waiting with
  | some request => .fault (.stuck request)
  | none => body

/-- The command of a word the host issues, or its refusal (R78, R202). -/
def runWord (w : CommandWord) (s : State) : Host.Outcome State Fault Refusal :=
  match decode w with
  | .ok i => exec i s
  | .error .illegalEncoding => .refused .illegalEncoding

/-- One step. -/
def step (s : State) : Host.Outcome State Fault Refusal :=
  match s.host with
  | [] => whenAnswered s (.next s)
  | .issue w :: _ => whenAnswered s (runWord w s.dropHostMove)
  | .writeSlot index value :: _ => hostWriteSlot index value s.dropHostMove
  | .writeByte address value :: _ => hostWriteByte address value s.dropHostMove
  | .reset :: _ => .next s.dropHostMove.restart

/-- The host issues the word with these bits next (log 5, log 21). -/
def State.withFetchWord (s : State) (nbits w : Nat) : State :=
  { s with host := .issue (tableWord nbits w) :: s.host }

end Sys2Proof.Machine
end

