-- ==== Sys2Proof/Machine/Assembler.lean ====
section
/-! DEFINITION. The assembler (spec 30_encoding.md R90, R91): the text of a line, its mnemonic with its operands as
numbers, the five pseudo-instructions among them, and the command word. -/

namespace Sys2Proof.Machine

/-- The forms of R90 and the pseudo-instructions of R91, operands in the source's argument order. -/
inductive AsmLine where
  | init (pin bus freq : Nat)
  | initDefault (pin bus : Nat)
  | setpx (index color : Nat)
  | setpxRgb (index r g b : Nat)
  | setrgb (index r g b : Nat)
  | sethsv (index hue sat val : Nat)
  | fill (color first cnt : Nat)
  | fillFrom (color first : Nat)
  | fillAll (color : Nat)
  | clear
  | showFrame
  | transmit
  | getpx (index : Nat)
  | rgb2pk (r g b : Nat)
  | hsv2pk (hue sat val : Nat)
  deriving DecidableEq, Repr

/-- An operand that fits a 32-bit slot; any other is rejected (R90). -/
def slotOperand (n : Nat) : Option Slot := if n < 2 ^ 32 then some (BitVec.ofNat 32 n) else none

/-- An operand that fits an 8-bit component; any other is rejected (R90). -/
def byteOperand (n : Nat) : Option Byte := if n < 2 ^ 8 then some (BitVec.ofNat 8 n) else none

/-- The core form a line stands for: a pseudo-instruction's expansion (R91), any other line itself. -/
def expand : AsmLine → AsmLine
  | .initDefault pin bus => .init pin bus Config.freqDefault
  | .fillAll color => .fill color 0 0
  | .fillFrom color first => .fill color first 0
  | .transmit => .showFrame
  | .setpxRgb index r g b => .setrgb index r g b
  | line => line

/-- The command of a core form (R90); `none` rejects an operand that does not fit, and a line that is no core form. -/
def assembleCore : AsmLine → Option Instr
  | .init pin bus freq => do return .init (← slotOperand pin) (← slotOperand bus) (← slotOperand freq)
  | .setpx index color => do return .setpx (← slotOperand index) (← slotOperand color)
  | .setrgb index r g b => do return .setrgb (← slotOperand index) (← byteOperand r) (← byteOperand g) (← byteOperand b)
  | .sethsv index hue sat val => do
    return .sethsv (← slotOperand index) (← byteOperand hue) (← byteOperand sat) (← byteOperand val)
  | .fill color first cnt => do return .fill (← slotOperand first) (← slotOperand cnt) (← slotOperand color)
  | .clear => some .clear
  | .showFrame => some .showFrame
  | .getpx index => do return .getpx (← slotOperand index)
  | .rgb2pk r g b => do return .rgb2pk (← byteOperand r) (← byteOperand g) (← byteOperand b)
  | .hsv2pk hue sat val => do return .hsv2pk (← byteOperand hue) (← byteOperand sat) (← byteOperand val)
  | .initDefault _ _ => none
  | .fillAll _ => none
  | .fillFrom _ _ => none
  | .transmit => none
  | .setpxRgb _ _ _ _ => none

/-- The command a line assembles to (R90, R91). -/
def assemble (line : AsmLine) : Option Instr := assembleCore (expand line)

/-- The command word of a line, or `none` where the assembler rejects it (R90). -/
def assembleWord (line : AsmLine) : Option CommandWord := (assemble line).map encode

/-! The text of a line: "One command per line: the mnemonic, then its operands separated by commas" (R90). Log 22. -/

/-- The value of a digit, `a` to `f` in either case. -/
def digitValue (c : Char) : Option Nat :=
  if 48 ≤ c.toNat ∧ c.toNat ≤ 57 then some (c.toNat - 48)
  else if 97 ≤ c.toNat ∧ c.toNat ≤ 102 then some (c.toNat - 87)
  else if 65 ≤ c.toNat ∧ c.toNat ≤ 70 then some (c.toNat - 55)
  else none

/-- The number a run of digits writes, after `acc`. -/
def readDigits (base acc : Nat) : List Char → Option Nat
  | [] => some acc
  | c :: cs =>
    match digitValue c with
    | some d => if d < base then readDigits base (base * acc + d) cs else none
    | none => none

/-- "Numbers are decimal or `0x` hexadecimal" (R90). -/
def readNumber (cs : List Char) : Option Nat :=
  if cs = [] then none
  else if cs.take 2 = ['0', 'x'] ∧ cs.drop 2 ≠ [] then readDigits 16 0 (cs.drop 2)
  else readDigits 10 0 cs

/-- A space or a tab. -/
def isBlank (c : Char) : Bool := c == ' ' || c == '\t'

/-- A text without the blanks around it. -/
def trimBlanks (cs : List Char) : List Char := ((cs.dropWhile isBlank).reverse.dropWhile isBlank).reverse

/-- The parts of a text between its commas. -/
def splitCommas : List Char → List (List Char)
  | [] => [[]]
  | c :: cs =>
    if c = ',' then [] :: splitCommas cs
    else
      match splitCommas cs with
      | [] => [[c]]
      | part :: parts => (c :: part) :: parts

/-- The operands of a line, `none` where one of them is no number. -/
def readOperands (cs : List Char) : Option (List Nat) :=
  if trimBlanks cs = [] then some [] else (splitCommas cs).mapM fun part => readNumber (trimBlanks part)

/-- The form of a mnemonic with this many operands (R90, R91); `none` for any other. -/
def lineOf (mnemonic : List Char) (operands : List Nat) : Option AsmLine :=
  if mnemonic = ['I', 'N', 'I', 'T'] then
    match operands with
    | [pin, bus, freq] => some (.init pin bus freq)
    | [pin, bus] => some (.initDefault pin bus)
    | _ => none
  else if mnemonic = ['S', 'E', 'T', 'P', 'X'] then
    match operands with
    | [index, color] => some (.setpx index color)
    | [index, r, g, b] => some (.setpxRgb index r g b)
    | _ => none
  else if mnemonic = ['S', 'E', 'T', 'R', 'G', 'B'] then
    match operands with
    | [index, r, g, b] => some (.setrgb index r g b)
    | _ => none
  else if mnemonic = ['S', 'E', 'T', 'H', 'S', 'V'] then
    match operands with
    | [index, hue, sat, val] => some (.sethsv index hue sat val)
    | _ => none
  else if mnemonic = ['F', 'I', 'L', 'L'] then
    match operands with
    | [color, first, cnt] => some (.fill color first cnt)
    | [color, first] => some (.fillFrom color first)
    | [color] => some (.fillAll color)
    | _ => none
  else if mnemonic = ['C', 'L', 'E', 'A', 'R'] then if operands = [] then some .clear else none
  else if mnemonic = ['S', 'H', 'O', 'W'] then if operands = [] then some .showFrame else none
  else if mnemonic = ['T', 'R', 'A', 'N', 'S', 'M', 'I', 'T'] then if operands = [] then some .transmit else none
  else if mnemonic = ['G', 'E', 'T', 'P', 'X'] then
    match operands with
    | [index] => some (.getpx index)
    | _ => none
  else if mnemonic = ['R', 'G', 'B', '2', 'P', 'K'] then
    match operands with
    | [r, g, b] => some (.rgb2pk r g b)
    | _ => none
  else if mnemonic = ['H', 'S', 'V', '2', 'P', 'K'] then
    match operands with
    | [hue, sat, val] => some (.hsv2pk hue sat val)
    | _ => none
  else none

/-- The words a line of text gives: none for a line that is blank but for a comment ("Comments start with `;`", R90), one
for a line with a command; `none` where the assembler rejects the line. -/
def assembleText (text : List Char) : Option (List CommandWord) :=
  let code := trimBlanks (text.takeWhile fun c => c != ';')
  if code = [] then some []
  else do
    let operands ← readOperands (code.dropWhile fun c => !isBlank c)
    let line ← lineOf (code.takeWhile fun c => !isBlank c) operands
    let word ← assembleWord line
    return [word]

end Sys2Proof.Machine
end

