-- ==== Sys2Proof/Safety.lean ====
section
/-! DEFINITION. The terms claims are stated in: what holds in every state a run reaches, which runs support a claim, and
what a command may change. -/

namespace Sys2Proof.Machine

/-- Every slot of the store holds a value (spec 10_state.md R40). -/
abbrev State.allValued (s : State) : Prop := ∀ i, i < s.count → (Memory.read s.pix i).isSome = true

/-- The block is idle in phase `p`: it waits for no answer (R35), so the host may present a command. -/
abbrev State.idleIn (s : State) (p : Phase) : Prop := s.waiting = none ∧ s.phase = p

/-- A run that stands here supports claims: no fault is recorded and nothing was refused (00_scope.md R12, 10_state.md
R34). -/
abbrev State.supportsClaims (s : State) : Prop := s.fault = none ∧ s.refused = false

/-- The form of an event of a block with `n` slots: the payloads of 40_pixel_store.md R102, R103 and 42_encoder.md R174,
and the responses of 30_encoding.md R80, R81. -/
def Event.wellFormed (n : Nat) : Event → Prop
  | .alloc slots _ => slots = n
  | .busInit _ _ bytes unusedOff _ => bytes = Config.maxTransferBytes ∧ unusedOff = true
  | .deviceAttach _ _ dma _ => dma = true
  | .transmit handle bits bytes _ =>
    handle = .session ∧ bits = 8 * (24 * n + 1) ∧ bytes.length = 24 * n + 1 ∧ bytes.head? = some Config.marker ∧
      ∀ b ∈ bytes.tail, b = Config.sym1 ∨ b = Config.sym0
  | .resp opc status data =>
    (status = .errBounds → opc = 0x02#8 ∨ opc = 0x03#8 ∨ opc = 0x04#8) ∧
      (status = .errAlloc → opc = 0x01#8) ∧
      (data ≠ 0#32 → status = .ok ∧ (opc = 0x08#8 ∨ opc = 0x09#8 ∨ opc = 0x0A#8))

/-- The invariant of the machine. -/
structure State.Inv (s : State) : Prop where
  /-- The Pixel Store is in canonical form, inside its index space (20_memory.md R50). -/
  pixWf : Memory.wf s.pix
  pixBelow : Memory.below s.pix s.count
  /-- The scratch buffer is in canonical form, inside its first `24 N + 1` bytes (R53). -/
  scratchWf : Memory.wf s.scratch
  scratchBelow : Memory.below s.scratch (24 * s.count + 1)
  /-- A fault is recorded exactly while the block is halted (10_state.md R33). -/
  faultIffHalted : s.phase = .halted ↔ s.fault.isSome = true
  /-- A halted block waits for nothing (60_exceptions.md R200, R205). -/
  haltedNotWaiting : s.phase = .halted → s.waiting = none
  /-- A borrowed store is backed from construction, every slot the host's (10_state.md R24, R38). -/
  borrowedBacked : s.backing = .borrowed → s.allocated = true ∧ s.allValued
  /-- A store that is not allocated holds no value (R39). -/
  unbackedEmpty : s.allocated = false → s.pix = []
  /-- In phase Ready everything INIT sets up is there (40_pixel_store.md R101; 10_state.md R29, R40). -/
  readyComplete : s.phase = .ready →
    s.allocated = true ∧ s.handle = .session ∧ s.cfgPin.isSome = true ∧ s.cfgBus.isSome = true ∧
      s.cfgFreq.isSome = true ∧ s.allValued
  /-- Between commands the scratch buffer holds no value (10_state.md R32). -/
  idleScratch : s.waiting = none → s.phase ≠ .halted → s.scratch = []
  /-- While a transmission is unanswered the scratch buffer holds the encoding of the store (42_encoder.md R172). -/
  pendingFrame : s.waiting = some .transmit →
    s.handle = .session ∧ s.allValued ∧ ∀ k, Memory.read s.scratch k = (enc s.pixels)[k]?
  /-- Every event has the form its rule gives it. -/
  historyWf : ∀ e ∈ s.history, e.wellFormed s.count

/-- The slot `j` of a store of `n` slots is one the command stores to (20_memory.md R59): the index operand below `n`, the
range of a fill, every slot for CLEAR and INIT. -/
def storesTo (n j : Nat) : Instr → Bool
  | .setpx index _ => decide (index.toNat < n) && decide (j = index.toNat)
  | .setrgb index _ _ _ => decide (index.toNat < n) && decide (j = index.toNat)
  | .sethsv index _ _ _ => decide (index.toNat < n) && decide (j = index.toNat)
  | .fill first cnt _ =>
    match fillEnd n first cnt with
    | some stop => decide (first.toNat ≤ j) && decide (j < stop)
    | none => false
  | .clear => decide (j < n)
  | .init _ _ _ => decide (j < n)
  | .showFrame => false
  | .getpx _ => false
  | .rgb2pk _ _ _ => false
  | .hsv2pk _ _ _ => false

/-- A store or transmit command: one that acceptance admits in phase Ready only (40_pixel_store.md R100). -/
def needsReady : Instr → Bool
  | .init _ _ _ => false
  | .setpx _ _ => true
  | .setrgb _ _ _ _ => true
  | .sethsv _ _ _ _ => true
  | .fill _ _ _ => true
  | .clear => true
  | .showFrame => true
  | .getpx _ => true
  | .rgb2pk _ _ _ => false
  | .hsv2pk _ _ _ => false

/-- A conversion command (RGB2PK, HSV2PK). -/
def isConversion : Instr → Bool
  | .rgb2pk _ _ _ => true
  | .hsv2pk _ _ _ => true
  | .init _ _ _ => false
  | .setpx _ _ => false
  | .setrgb _ _ _ _ => false
  | .sethsv _ _ _ _ => false
  | .fill _ _ _ => false
  | .clear => false
  | .showFrame => false
  | .getpx _ => false

/-- INIT. -/
def isInit : Instr → Bool
  | .init _ _ _ => true
  | .setpx _ _ => false
  | .setrgb _ _ _ _ => false
  | .sethsv _ _ _ _ => false
  | .fill _ _ _ => false
  | .clear => false
  | .showFrame => false
  | .getpx _ => false
  | .rgb2pk _ _ _ => false
  | .hsv2pk _ _ _ => false

/-- The transmissions in a history. -/
def transmissions (h : List Event) : List (List Byte) :=
  h.filterMap fun e =>
    match e with
    | .transmit _ _ bytes _ => some bytes
    | .alloc _ _ => none
    | .busInit _ _ _ _ _ => none
    | .deviceAttach _ _ _ _ => none
    | .resp _ _ _ => none

/-- The responses in a history. -/
def responses (h : List Event) : List (Byte × Status × Slot) :=
  h.filterMap fun e =>
    match e with
    | .resp opc status data => some (opc, status, data)
    | .alloc _ _ => none
    | .busInit _ _ _ _ _ => none
    | .deviceAttach _ _ _ _ => none
    | .transmit _ _ _ _ => none

/-- Where INIT stands once the store is backed (40_pixel_store.md R101, R102): at once when it already is, else after the
allocator's answer OK. -/
def State.backed (s : State) : State :=
  if s.allocated then s else (s.dropAllocAnswer.emit (.alloc s.count (some .ok))).backStore

/-- INIT finds a backed store, or the allocator's next answer is OK. -/
abbrev State.canBack (s : State) : Prop := s.allocated = true ∨ s.allocAnswer 0 = some .ok

/-- Commands run one after the other, up to the first that ends in no next state (20_memory.md R63). -/
def runCommands : List Instr → State → Host.Outcome State Fault Refusal
  | [], s => .next s
  | i :: is, s =>
    match exec i s with
    | .next t => runCommands is t
    | .fault r => .fault r
    | .refused r => .refused r

/-- `s` with another history. -/
def State.withHistory (s : State) (h : List Event) : State := { s with history := h }

/-- An outcome with its next state changed. -/
def mapNext (f : State → State) : Host.Outcome State Fault Refusal → Host.Outcome State Fault Refusal
  | .next t => .next (f t)
  | .fault r => .fault r
  | .refused r => .refused r

end Sys2Proof.Machine
end

