-- ==== Sys2Proof/Certificates/Slice0/Obligations.lean ====
section
/-! DEFINITION. The statements for the provers. Each docstring names the rule of the spec it formalises; a clause that is
the model's own choice names its log entry. -/

open Sys2Proof Sys2Proof.Machine

/-! ## The command word -/

/-- The words of spec 95_test_vectors.md section 2.1 decode as its table says. -/
def Obligations.SpecWordsDecode : Prop :=
  decode 0x01000000_00000005_00000001_007A1200#128 = .ok (.init 5 1 8000000) ∧
  decode 0x02000000_00000001_00000000_0000FF00#128 = .ok (.setpx 1 0x0000FF00) ∧
  decode 0x03000000_00000000_00000000_00FF0000#128 = .ok (.setrgb 0 255 0 0) ∧
  decode 0x04000000_00000002_00000000_0000004D#128 = .ok (.sethsv 2 0 0 77) ∧
  decode 0x05000000_00000003_00000000_00123456#128 = .ok (.fill 3 0 0x123456) ∧
  decode 0x06000000_00000000_00000000_00000000#128 = .ok .clear ∧
  decode 0x07000000_00000000_00000000_00000000#128 = .ok .showFrame ∧
  decode 0x08000000_00000002_00000000_00000000#128 = .ok (.getpx 2) ∧
  decode 0x09000000_00000000_00000000_00123456#128 = .ok (.rgb2pk 18 52 86) ∧
  decode 0x0A000000_00000000_00000000_0064004D#128 = .ok (.hsv2pk 100 0 77) ∧
  decode 0x00000000_00000000_00000000_00000000#128 = .error .illegalEncoding ∧
  decode 0x07000001_00000000_00000000_00000000#128 = .error .illegalEncoding ∧
  decode 0x03000000_00000000_00000000_01FF0000#128 = .error .illegalEncoding

/-- Decoding the encoding of a command gives it back, every operand at every value (30_encoding.md sections 1 and 2). -/
def Obligations.DecodeEncodeRoundTrip : Prop := ∀ i : Instr, decode (encode i) = .ok i

/-- Every admitted word is the one spelling of the command it decodes to (30_encoding.md sections 1 and 2). -/
def Obligations.EncodeDecodeRoundTrip : Prop := ∀ (w : CommandWord) (i : Instr), decode w = .ok i → encode i = w

/-- R78: the decoder is total, decodes by the rows of the table, and no two rows overlap. -/
def Obligations.DecodeFollowsOpcodeTable : Prop :=
  (∀ w : CommandWord, (∃ i, decode w = .ok i) ∨ decode w = .error .illegalEncoding) ∧
  (∀ (w : CommandWord) (row : OpcodeRow), row ∈ opcodeTable →
    ((∃ i, decode w = .ok i ∧ opcode i = row.opc) ↔ w &&& row.mask = row.value)) ∧
  (∀ (w : CommandWord) (i : Instr), decode w = .ok i → ∃ row ∈ opcodeTable, opcode i = row.opc) ∧
  (∀ (w : CommandWord) (row row' : OpcodeRow), row ∈ opcodeTable → row' ∈ opcodeTable →
    w &&& row.mask = row.value → w &&& row'.mask = row'.value → row = row') ∧
  (opcodeTable.map fun row => row.opc).Nodup

/-- R73: any bit of RSVD set refuses the word. -/
def Obligations.ReservedBitsRefused : Prop :=
  ∀ (s : State) (w : CommandWord) (rest : List HostMove) (k : Nat), s.waiting = none → s.host = .issue w :: rest →
    96 ≤ k → k < 120 → w.getLsbD k = true → step s = .refused .illegalEncoding

/-- R76: a reserved opcode refuses the word, the all-zero word among them. -/
def Obligations.ReservedOpcodesRefused : Prop :=
  ∀ (s : State) (w : CommandWord) (rest : List HostMove), s.waiting = none → s.host = .issue w :: rest →
    (w.toNat / 2 ^ 120 = 0 ∨ 0x0B ≤ w.toNat / 2 ^ 120) → step s = .refused .illegalEncoding

/-- R74: a nonzero bit in a part the command does not use (the mask of its row) refuses the word. -/
def Obligations.UnusedOperandBitsRefused : Prop :=
  ∀ (s : State) (w : CommandWord) (rest : List HostMove) (row : OpcodeRow), s.waiting = none →
    s.host = .issue w :: rest → row ∈ opcodeTable → w.toNat / 2 ^ 120 = row.opc.toNat →
    w &&& row.mask ≠ row.value → step s = .refused .illegalEncoding

/-- A step runs the decoded command, the host's move taken (R3, R35, R78). -/
def Obligations.StepRunsDecodedCommand : Prop :=
  ∀ (s : State) (w : CommandWord) (rest : List HostMove) (i : Instr), s.waiting = none → s.host = .issue w :: rest →
    decode w = .ok i → step s = exec i { s with host := rest }

/-- With no move to come the block is idle, with all state kept (R215, R231). -/
def Obligations.IdleBlockKeepsItsState : Prop :=
  ∀ s : State, s.waiting = none → s.host = [] → step s = .next s

/-! ## Acceptance, halting and waiting -/

/-- A store or transmit command in phase Unready faults NOT_READY and does nothing else (R100, R200). -/
def Obligations.StoreCommandBeforeInitFaults : Prop :=
  ∀ (i : Instr) (s : State), needsReady i = true → s.idleIn .unready →
    exec i s = .next { s with phase := .halted, fault := some .notReady }

/-- A halted block takes no step on any command (R200, R207; that no step is reported as a stop is log 6). -/
def Obligations.HaltedBlockTakesNoStep : Prop :=
  ∀ (i : Instr) (s : State), s.idleIn .halted → exec i s = .fault (.halted s.fault)

/-- A block that waits for ever accepts no command, and no step of the machine but a reset gets it out (R205, R230;
log 7). -/
def Obligations.WaitingBlockAcceptsNothing : Prop :=
  ∀ (i : Instr) (s : State) (q : Request), s.waiting = some q →
    exec i s = .fault (.stuck q) ∧ (s.host.head? ≠ some .reset → step s = .fault (.stuck q))

/-- R105: INIT in Ready is refused; after ERR_ALLOC it follows R101 from the start. -/
def Obligations.SecondInit : Prop :=
  (∀ (pin bus freq : Slot) (s : State), s.idleIn .ready → exec (.init pin bus freq) s = .refused .reinit) ∧
  (∀ (pin bus freq : Slot) (s : State), s.idleIn .unready → s.allocated = false →
    s.allocAnswer 0 = some .fail →
    ∃ t, exec (.init pin bus freq) s = .next t ∧ t.idleIn .unready ∧ t.allocated = false ∧
      ∀ pin' bus' freq', exec (.init pin' bus' freq') t = .next (t.initialise pin' bus' freq'))

/-- A refused move leaves the state as it was but for the REFUSED mark, and the run then supports no claim (R34, R202; that
the mark is set by `settle` is log 8). -/
def Obligations.RefusalMarksTheRun : Prop :=
  ∀ (s : State) (r : Refusal), step s = .refused r →
    settle s (step s) = { s with refused := true } ∧ ¬ (settle s (step s)).supportsClaims

/-! ## INIT -/

/-- INIT with every answer OK: what it leaves in every field (R101, R103, R234). -/
def Obligations.InitBringsTheBlockUp : Prop :=
  ∀ (pin bus freq : Slot) (s : State), s.idleIn .unready → s.canBack →
    s.transportAnswer 0 = some .ok → s.transportAnswer 1 = some .ok → s.transportAnswer 2 = some .ok →
    ∃ t, exec (.init pin bus freq) s = .next t ∧ t.phase = .ready ∧ t.allocated = true ∧ t.handle = .session ∧
      t.cfgPin = some pin ∧ t.cfgBus = some bus ∧ t.cfgFreq = some freq ∧
      (∀ j, Memory.read t.pix j =
        if j < s.count then some 0#32 else if s.allocated then Memory.read s.pix j else none) ∧
      t.scratch = [] ∧ t.count = s.count ∧ t.backing = s.backing ∧ t.fault = s.fault ∧ t.refused = s.refused ∧
      t.waiting = none ∧ t.host = s.host ∧ t.transportAnswers = s.transportAnswers.drop 3 ∧
      t.allocAnswers = (if s.allocated then s.allocAnswers else s.allocAnswers.tail) ∧
      t.history = s.history ++
        ((if s.allocated then [] else [.alloc s.count (some .ok)]) ++
          [.busInit pin bus Config.maxTransferBytes true (some .ok), .deviceAttach bus freq true (some .ok),
            .transmit .session (8 * (24 * s.count + 1)) (enc (List.replicate s.count 0#32)) (some .ok),
            .resp 0x01#8 .ok 0#32])

/-- A failed allocation responds ERR_ALLOC and changes nothing but the history; no transport request is made (R102, R203).
The draw taken from the allocator's list is log 4. -/
def Obligations.FailedAllocationTouchesNothing : Prop :=
  ∀ (pin bus freq : Slot) (s : State), s.idleIn .unready → s.allocated = false → s.allocAnswer 0 = some .fail →
    exec (.init pin bus freq) s =
      .next { s with
        history := s.history ++ [.alloc s.count (some .fail), .resp 0x01#8 .errAlloc 0#32]
        allocAnswers := s.allocAnswers.tail }

/-- R104: the store is cleared and one all-off frame sent; Ready and the OK response come only with its OK answer. -/
def Obligations.InitClearsAndSendsAllOff : Prop :=
  ∀ (pin bus freq : Slot) (s : State), s.idleIn .unready → s.canBack →
    s.transportAnswer 0 = some .ok → s.transportAnswer 1 = some .ok →
    ∃ t, exec (.init pin bus freq) s = .next t ∧
      (∀ j, j < s.count → Memory.read t.pix j = some 0#32) ∧
      t.pix = s.backed.clearStore.pix ∧
      transmissions t.history =
        transmissions s.history ++ [Config.marker :: List.replicate (24 * s.count) Config.sym0] ∧
      (t.phase = .ready ↔ s.transportAnswer 2 = some .ok) ∧
      (responses t.history = responses s.history ++ [(0x01#8, .ok, 0#32)] ↔ s.transportAnswer 2 = some .ok)

/-- A transport ERROR inside INIT faults with its own reason, no response, and keeps every effect made before it (R101,
R172, R201, R206); that the scratch buffer then keeps its frame is log 11. -/
def Obligations.InitTransportFaultsArePrecise : Prop :=
  ∀ (pin bus freq : Slot) (s : State), s.idleIn .unready → s.canBack →
    (s.transportAnswer 0 = some .error →
      exec (.init pin bus freq) s = .next { s.backed with
        cfgPin := some pin, cfgBus := some bus, cfgFreq := some freq
        transportAnswers := s.transportAnswers.drop 1
        history := s.backed.history ++ [.busInit pin bus Config.maxTransferBytes true (some .error)]
        phase := .halted, fault := some .transportBusInit }) ∧
    (s.transportAnswer 0 = some .ok → s.transportAnswer 1 = some .error →
      exec (.init pin bus freq) s = .next { s.backed with
        cfgPin := some pin, cfgBus := some bus, cfgFreq := some freq
        transportAnswers := s.transportAnswers.drop 2
        history := s.backed.history ++ [.busInit pin bus Config.maxTransferBytes true (some .ok),
          .deviceAttach bus freq true (some .error)]
        phase := .halted, fault := some .transportAttach }) ∧
    (s.transportAnswer 0 = some .ok → s.transportAnswer 1 = some .ok → s.transportAnswer 2 = some .error →
      exec (.init pin bus freq) s = .next { s.backed with
        cfgPin := some pin, cfgBus := some bus, cfgFreq := some freq
        transportAnswers := s.transportAnswers.drop 3
        handle := .session, pix := s.backed.clearStore.pix
        scratch := Memory.writeFrom s.scratch 0 (enc (List.replicate s.count 0#32))
        history := s.backed.history ++ [.busInit pin bus Config.maxTransferBytes true (some .ok),
          .deviceAttach bus freq true (some .ok),
          .transmit .session (8 * (24 * s.count + 1)) (enc (List.replicate s.count 0#32)) (some .error)]
        phase := .halted, fault := some .transportTx })

/-- A request of INIT that is never answered leaves the block waiting on it in phase Unready, with no response, and the
draws after it to come (R205, R11; log 4, log 7). -/
def Obligations.InitWaitsForAnAnswer : Prop :=
  ∀ (pin bus freq : Slot) (s : State), s.idleIn .unready →
    ∃ t, exec (.init pin bus freq) s = .next t ∧
      (s.allocated = false → s.allocAnswer 0 = none →
        t.waiting = some .alloc ∧ t.history = s.history ++ [.alloc s.count none] ∧
          t.allocAnswers = s.allocAnswers.tail ∧ t.transportAnswers = s.transportAnswers) ∧
      (s.canBack → s.transportAnswer 0 = none →
        t.waiting = some .busInit ∧ t.transportAnswers = s.transportAnswers.drop 1 ∧
          t.history = s.backed.history ++ [.busInit pin bus Config.maxTransferBytes true none]) ∧
      (s.canBack → s.transportAnswer 0 = some .ok → s.transportAnswer 1 = none →
        t.waiting = some .deviceAttach ∧ t.transportAnswers = s.transportAnswers.drop 2 ∧ t.handle = s.handle ∧
          t.history.getLast? = some (.deviceAttach bus freq true none)) ∧
      (s.canBack → s.transportAnswer 0 = some .ok → s.transportAnswer 1 = some .ok → s.transportAnswer 2 = none →
        t.waiting = some .transmit ∧ t.transportAnswers = s.transportAnswers.drop 3 ∧ t.handle = .session ∧
          t.history.getLast? = some (.transmit .session (8 * (24 * s.count + 1))
            (enc (List.replicate s.count 0#32)) none)) ∧
      (t.waiting ≠ none → t.phase = .unready ∧ responses t.history = responses s.history)

/-- What INIT never changes: the construction constants, the refusal mark, the host's moves, the allocator's answers when
the store is backed, the scratch buffer beyond a frame (where it still holds values), and every slot it does not clear,
of a store that is backed or, as the invariant has it, empty (R25, R39, R52, R172). -/
def Obligations.InitFrame : Prop :=
  ∀ (pin bus freq : Slot) (s t : State), exec (.init pin bus freq) s = .next t →
    t.count = s.count ∧ t.backing = s.backing ∧ t.refused = s.refused ∧ t.host = s.host ∧
      (t.scratch = [] ∨ ∀ k, 24 * s.count + 1 ≤ k → Memory.read t.scratch k = Memory.read s.scratch k) ∧
      (s.allocated = true → t.allocated = true ∧ t.allocAnswers = s.allocAnswers) ∧
      ((s.allocated = true ∨ s.pix = []) →
        ∀ j, storesTo s.count j (.init pin bus freq) = false → Memory.read t.pix j = Memory.read s.pix j)

/-! ## SETPX, SETRGB, SETHSV, FILL, CLEAR, GETPX -/

/-- SETPX in range writes all 32 bits of its color into its slot, responds OK, and changes nothing else (R110, R51). -/
def Obligations.SetpxWritesItsSlot : Prop :=
  ∀ (index color : Slot) (s : State), s.idleIn .ready → index.toNat < s.count →
    ∃ t, exec (.setpx index color) s = .next t ∧
      t = { s with pix := t.pix, history := s.history ++ [.resp 0x02#8 .ok 0#32] } ∧
      ∀ j, Memory.read t.pix j = if j = index.toNat then some color else Memory.read s.pix j

/-- SETRGB in range writes `(g << 16) | (r << 8) | b` into its slot (R115, R140). -/
def Obligations.SetrgbWritesPackedColor : Prop :=
  ∀ (index : Slot) (r g b : Byte) (s : State), s.idleIn .ready → index.toNat < s.count →
    ∃ t, exec (.setrgb index r g b) s = .next t ∧
      t = { s with pix := t.pix, history := s.history ++ [.resp 0x03#8 .ok 0#32] } ∧
      ∀ j, Memory.read t.pix j =
        if j = index.toNat then some (BitVec.ofNat 32 (g.toNat * 2 ^ 16 + r.toNat * 2 ^ 8 + b.toNat))
        else Memory.read s.pix j

/-- SETHSV in range writes the packed color of HSVF's components into its slot; `sat = 0` writes `pack(val, val, val)` and
`val = 0` the zero color, whatever HSVF is (R117, R144, R145). -/
def Obligations.SethsvWritesConvertedColor : Prop :=
  ∀ (index : Slot) (hue sat val : Byte) (s : State), s.idleIn .ready → index.toNat < s.count →
    ∃ t, exec (.sethsv index hue sat val) s = .next t ∧
      t = { s with pix := t.pix, history := s.history ++ [.resp 0x04#8 .ok 0#32] } ∧
      (∀ j, j ≠ index.toNat → Memory.read t.pix j = Memory.read s.pix j) ∧
      Memory.read t.pix index.toNat =
        some (pack (hsvf hue sat val).1 (hsvf hue sat val).2.1 (hsvf hue sat val).2.2) ∧
      (sat = 0#8 → Memory.read t.pix index.toNat = some (pack val val val)) ∧
      (val = 0#8 → Memory.read t.pix index.toNat = some 0#32)

/-- R111: an index beyond the store changes nothing but the history, responds ERR_BOUNDS, and every later command behaves
as if the failed one had not been issued, apart from its event. -/
def Obligations.BoundsViolationIsANoOp : Prop :=
  ∀ (i : Instr) (index : Slot) (s : State), s.idleIn .ready → s.count ≤ index.toNat →
    ((∃ color, i = .setpx index color) ∨ (∃ r g b, i = .setrgb index r g b) ∨
      (∃ hue sat val, i = .sethsv index hue sat val)) →
    ∃ t, exec i s = .next t ∧ t = s.withHistory (s.history ++ [.resp (opcode i) .errBounds 0#32]) ∧
      ∀ j : Instr, exec j t =
        mapNext (fun u => u.withHistory (t.history ++ u.history.drop s.history.length)) (exec j s)

/-- R121, R122: a fill whose sum reaches `2^32` is refused; any other writes exactly the slots from `first` up to
`fill_end`, the end of the store for `cnt = 0`, clamped to the store otherwise, and responds OK. -/
def Obligations.FillWritesItsRange : Prop :=
  ∀ (first cnt color : Slot) (s : State), s.idleIn .ready →
    ((cnt ≠ 0#32 ∧ 2 ^ 32 ≤ first.toNat + cnt.toNat) →
      exec (.fill first cnt color) s = .refused .fillOverflow) ∧
    (¬ (cnt ≠ 0#32 ∧ 2 ^ 32 ≤ first.toNat + cnt.toNat) →
      ∃ t, exec (.fill first cnt color) s = .next t ∧
        t = { s with pix := t.pix, history := s.history ++ [.resp 0x05#8 .ok 0#32] } ∧
        ∀ j, Memory.read t.pix j =
          if first.toNat ≤ j ∧ j < (if cnt = 0#32 then s.count else min (first.toNat + cnt.toNat) s.count) then some color
          else Memory.read s.pix j)

/-- CLEAR zeroes every slot, all 32 bits, sends nothing, and leaves exactly the store `FILL 0, 0, 0` leaves (R125). -/
def Obligations.ClearZeroesTheStore : Prop :=
  ∀ s : State, s.idleIn .ready →
    ∃ t, exec .clear s = .next t ∧
      t = { s with pix := t.pix, history := s.history ++ [.resp 0x06#8 .ok 0#32] } ∧
      (∀ j, Memory.read t.pix j = if j < s.count then some 0#32 else Memory.read s.pix j) ∧
      ∃ u, exec (.fill 0#32 0#32 0#32) s = .next u ∧ u.pix = t.pix

/-- GETPX in range responds with all 32 bits of its slot and changes nothing (R130). -/
def Obligations.GetpxReturnsItsSlot : Prop :=
  ∀ (index v : Slot) (s : State), s.idleIn .ready → index.toNat < s.count → Memory.read s.pix index.toNat = some v →
    exec (.getpx index) s = .next { s with history := s.history ++ [.resp 0x08#8 .ok v] }

/-- GETPX beyond the store faults READ_OOR, with no response (R130, R200). -/
def Obligations.GetpxBeyondTheStoreFaults : Prop :=
  ∀ (index : Slot) (s : State), s.idleIn .ready → s.count ≤ index.toNat →
    exec (.getpx index) s = .next { s with phase := .halted, fault := some .readOor }

/-- Setting a pixel and reading it back gives the color unchanged, bits 31 to 24 included (95_test_vectors.md W10). -/
def Obligations.SetpxGetpxRoundTrip : Prop :=
  ∀ (index color : Slot) (s : State), s.idleIn .ready → index.toNat < s.count →
    ∃ t, runCommands [.setpx index color, .getpx index] s = .next t ∧
      responses t.history = responses s.history ++ [(0x02#8, .ok, 0#32), (0x08#8, .ok, color)]

/-- R131: GETPX 0 to GETPX N-1 return the whole store, leaving it as it is, and the host reading a borrowed buffer
directly sees the same values. An index operand is 32 bits (R72), so the sweep exists for a store of at most `2^32` slots. -/
def Obligations.GetpxSweepReadsTheStore : Prop :=
  ∀ s : State, s.idleIn .ready → s.allValued → s.count ≤ 2 ^ 32 →
    (∃ t, runCommands ((List.range s.count).map fun i => .getpx (BitVec.ofNat 32 i)) s = .next t ∧
      responses t.history = responses s.history ++ s.pixels.map (fun v => (0x08#8, .ok, v)) ∧
      t = s.withHistory t.history) ∧
    (s.backing = .borrowed → ∀ i, i < s.count → hostReadSlot s i = s.pixels[i]?)

/-- Issuing a store command twice in a row leaves the same state as once, but for the history (R60). -/
def Obligations.StoreCommandsAreIdempotent : Prop :=
  ∀ (i : Instr) (s t : State), s.idleIn .ready →
    ((∃ index color, i = .setpx index color) ∨ (∃ index r g b, i = .setrgb index r g b) ∨
      (∃ index hue sat val, i = .sethsv index hue sat val) ∨ (∃ first cnt color, i = .fill first cnt color) ∨
      i = .clear) →
    exec i s = .next t →
    ∃ u, exec i t = .next u ∧ u = { t with pix := u.pix, history := u.history } ∧
      ∀ j, Memory.read u.pix j = Memory.read t.pix j

/-- What every command but INIT leaves unchanged: all registers INIT writes, the construction constants, the mark, the
allocator's and host's inputs, and every slot but those the command stores to; and, for every command but SHOW, the
scratch buffer, the wait and the transport's answers too (R26 to R29, R59, R246). -/
def Obligations.CommandFrame : Prop :=
  ∀ (i : Instr) (s t : State), isInit i = false → exec i s = .next t →
    t.count = s.count ∧ t.backing = s.backing ∧ t.allocated = s.allocated ∧ t.cfgPin = s.cfgPin ∧
      t.cfgBus = s.cfgBus ∧ t.cfgFreq = s.cfgFreq ∧ t.handle = s.handle ∧ t.refused = s.refused ∧
      t.host = s.host ∧ t.allocAnswers = s.allocAnswers ∧
      (∀ j, storesTo s.count j i = false → Memory.read t.pix j = Memory.read s.pix j) ∧
      (i ≠ .showFrame →
        t.scratch = s.scratch ∧ t.waiting = s.waiting ∧ t.transportAnswers = s.transportAnswers) ∧
      (t.phase ≠ .halted → t.phase = s.phase ∧ t.fault = s.fault)

/-! ## Color conversion -/

/-- R140: the layout of a packed color, for every one of the `2^24` triples. -/
def Obligations.PackedColorLayout : Prop :=
  ∀ r g b : Byte,
    (pack r g b).toNat = (g.toNat <<< 16) ||| (r.toNat <<< 8) ||| b.toNat ∧
      (pack r g b).extractLsb' 24 8 = 0#8 ∧ (pack r g b).extractLsb' 16 8 = g ∧
      (pack r g b).extractLsb' 8 8 = r ∧ (pack r g b).extractLsb' 0 8 = b

/-- R142: unpacking, and that packing is a bijection onto the slot values with bits 31 to 24 zero. -/
def Obligations.PackUnpack : Prop :=
  (∀ c : Slot, pack (c.extractLsb' 8 8) (c.extractLsb' 16 8) (c.extractLsb' 0 8) = c &&& 0x00FFFFFF#32) ∧
  (∀ r g b r' g' b' : Byte, pack r g b = pack r' g' b' → r = r' ∧ g = g' ∧ b = b') ∧
  (∀ c : Slot, (∃ r g b, pack r g b = c) ↔ c.extractLsb' 24 8 = 0#8)

/-- RGB2PK responds with the packed color in every phase that runs and touches nothing (R141). -/
def Obligations.Rgb2pkResponds : Prop :=
  ∀ (r g b : Byte) (s : State), s.waiting = none → s.phase ≠ .halted →
    exec (.rgb2pk r g b) s = .next { s with
      history := s.history ++
        [.resp 0x09#8 .ok (BitVec.ofNat 32 (g.toNat * 2 ^ 16 + r.toNat * 2 ^ 8 + b.toNat))] }

/-- HSV2PK responds with the packed color of HSVF's components in every phase that runs and touches nothing (R144), and
HSVF obeys laws L1 and L2 whatever it is (R145). -/
def Obligations.Hsv2pkResponds : Prop :=
  ∀ (hue sat val : Byte) (s : State), s.waiting = none → s.phase ≠ .halted →
    exec (.hsv2pk hue sat val) s = .next { s with
      history := s.history ++
        [.resp 0x0A#8 .ok (pack (hsvf hue sat val).1 (hsvf hue sat val).2.1 (hsvf hue sat val).2.2)] } ∧
    (sat = 0#8 → hsvf hue sat val = (val, val, val)) ∧ (val = 0#8 → hsvf hue sat val = (0#8, 0#8, 0#8))

/-- R143: the sector of every hue. -/
def Obligations.HueSectors : Prop :=
  ∀ hue : Byte, region hue = hue.toNat / 43 ∧
    sector hue =
      if hue.toNat ≤ 42 then 0 else if hue.toNat ≤ 85 then 1 else if hue.toNat ≤ 128 then 2
      else if hue.toNat ≤ 171 then 3 else if hue.toNat ≤ 214 then 4 else 5

/-- HSVF_ref obeys L1 and L2, no result of it is cut short, and it uses at every sector start that sector's formula (R147,
R148). The routine is the spec's reference from general knowledge and no claim about the hardware (log 24). -/
def Obligations.ReferenceHsvObeysLaws : Prop :=
  (∀ hue val : Byte, hsvRef hue 0#8 val = (val, val, val)) ∧
  (∀ hue sat : Byte, hsvRef hue sat 0#8 = (0#8, 0#8, 0#8)) ∧
  (∀ hue sat val : Byte,
    (hsvRefNat hue sat val).1 ≤ 255 ∧ (hsvRefNat hue sat val).2.1 ≤ 255 ∧ (hsvRefNat hue sat val).2.2 ≤ 255) ∧
  (∀ sat val : Byte, sat ≠ 0#8 →
    hsvRefNat 0 sat val = (val.toNat, hsvT 0 sat val, hsvP sat val) ∧
    hsvRefNat 43 sat val = (hsvQ 43 sat val, val.toNat, hsvP sat val) ∧
    hsvRefNat 86 sat val = (hsvP sat val, val.toNat, hsvT 86 sat val) ∧
    hsvRefNat 129 sat val = (hsvP sat val, hsvQ 129 sat val, val.toNat) ∧
    hsvRefNat 172 sat val = (hsvT 172 sat val, hsvP sat val, val.toNat) ∧
    hsvRefNat 215 sat val = (val.toNat, hsvP sat val, hsvQ 215 sat val))

/-! ## The encoder and SHOW -/

/-- R171: every byte of the encoding. -/
def Obligations.EncodingFormula : Prop :=
  ∀ ps : List Slot, (enc ps).length = 24 * ps.length + 1 ∧ (enc ps)[0]? = some 0x00#8 ∧
    ∀ (i j : Nat) (p : Slot), ps[i]? = some p → j < 24 →
      (enc ps)[1 + 24 * i + j]? = some (if p.getLsbD (23 - j) then Config.sym1 else Config.sym0)

/-- The laws of Enc (R178): locality, masking, injectivity on colors, symbols only after the marker, and the count of
high symbols after the marker (that the marker itself is not counted is log 16). -/
def Obligations.EncodingLaws : Prop :=
  (∀ (ps qs : List Slot) (i j : Nat) (p q : Slot), ps[i]? = some p → qs[i]? = some q → j < 24 →
    p.getLsbD (23 - j) = q.getLsbD (23 - j) → (enc ps)[1 + 24 * i + j]? = (enc qs)[1 + 24 * i + j]?) ∧
  (∀ ps qs : List Slot, ps.length = qs.length →
    (enc ps = enc qs ↔ ps.map (fun p => p &&& 0x00FFFFFF#32) = qs.map (fun p => p &&& 0x00FFFFFF#32))) ∧
  (∀ (ps : List Slot) (b : Byte), b ∈ (enc ps).tail → b = Config.sym1 ∨ b = Config.sym0) ∧
  (∀ ps : List Slot, (enc ps).tail.count Config.sym1 =
    (ps.map fun p => ((List.range 24).map fun k => (p.getLsbD k).toNat).sum).sum)

/-- SHOW answered OK: one transmission of the store's encoding on the handle, then OK, and nothing else changed but the
scratch buffer (R173, R174). -/
def Obligations.ShowSendsTheStore : Prop :=
  ∀ s : State, s.idleIn .ready → s.allValued → s.transportAnswer 0 = some .ok →
    exec .showFrame s = .next { s with
      scratch := []
      transportAnswers := s.transportAnswers.tail
      history := s.history ++
        [.transmit s.handle (8 * (24 * s.count + 1)) (enc s.pixels) (some .ok), .resp 0x07#8 .ok 0#32] }

/-- R176: an ERROR on the transmit request is a fault and never a status, in SHOW and in INIT: no response, and the one
request is not made again. -/
def Obligations.TransmitErrorIsAFault : Prop :=
  (∀ s : State, s.idleIn .ready → s.allValued → s.transportAnswer 0 = some .error →
    ∃ t, exec .showFrame s = .next t ∧ t.phase = .halted ∧ t.fault = some .transportTx ∧ t.pix = s.pix ∧
      responses t.history = responses s.history ∧
      transmissions t.history = transmissions s.history ++ [enc s.pixels]) ∧
  (∀ (pin bus freq : Slot) (s : State), s.idleIn .unready → s.canBack →
    s.transportAnswer 0 = some .ok → s.transportAnswer 1 = some .ok → s.transportAnswer 2 = some .error →
    ∃ t, exec (.init pin bus freq) s = .next t ∧ t.phase = .halted ∧ t.fault = some .transportTx ∧
      responses t.history = responses s.history ∧
      transmissions t.history = transmissions s.history ++ [enc (List.replicate s.count 0#32)])

/-- A SHOW that is never answered leaves the block waiting on its transmission, with no response and the store unchanged
(R173, R205; log 4, log 7); that the scratch buffer then keeps its frame is log 11. -/
def Obligations.ShowWaitsForAnAnswer : Prop :=
  ∀ s : State, s.idleIn .ready → s.allValued → s.transportAnswer 0 = none →
    exec .showFrame s = .next { s with
      scratch := Memory.writeFrom s.scratch 0 (enc s.pixels)
      waiting := some .transmit
      transportAnswers := s.transportAnswers.tail
      history := s.history ++ [.transmit s.handle (8 * (24 * s.count + 1)) (enc s.pixels) none] }

/-- R175: whatever the answer, a transmission, SHOW's or INIT's, sends the whole store in exactly one request and takes at
most one answer: no part of a frame, no retry. -/
def Obligations.OneWholeTransferNoRetry : Prop :=
  (∀ s : State, s.idleIn .ready → s.allValued →
    ∃ t, exec .showFrame s = .next t ∧
      transmissions t.history = transmissions s.history ++ [enc s.pixels] ∧
      t.transportAnswers = s.transportAnswers.tail) ∧
  (∀ (pin bus freq : Slot) (s : State), s.idleIn .unready → s.canBack →
    s.transportAnswer 0 = some .ok → s.transportAnswer 1 = some .ok →
    ∃ t, exec (.init pin bus freq) s = .next t ∧
      transmissions t.history = transmissions s.history ++ [enc t.pixels] ∧
      t.transportAnswers = s.transportAnswers.drop 3)

/-- Before its transmit request a transmission, SHOW's or INIT's, has written exactly the first `24 N + 1` bytes of the
scratch buffer, each with its byte of the encoding: seen where the request is not answered OK (R53, R172; log 11). -/
def Obligations.ScratchHoldsTheFrame : Prop :=
  (∀ s : State, s.idleIn .ready → s.allValued → s.transportAnswer 0 ≠ some .ok →
    ∃ t, exec .showFrame s = .next t ∧
      ∀ k, Memory.read t.scratch k =
        if k < 24 * s.count + 1 then (enc s.pixels)[k]? else Memory.read s.scratch k) ∧
  (∀ (pin bus freq : Slot) (s : State), s.idleIn .unready → s.canBack →
    s.transportAnswer 0 = some .ok → s.transportAnswer 1 = some .ok → s.transportAnswer 2 ≠ some .ok →
    ∃ t, exec (.init pin bus freq) s = .next t ∧
      ∀ k, Memory.read t.scratch k =
        if k < 24 * s.count + 1 then (enc (List.replicate s.count 0#32))[k]? else Memory.read s.scratch k)

/-- A SHOW sends the latest write to each slot (R63, R64). -/
def Obligations.ShowSendsTheLatestWrite : Prop :=
  ∀ (index color : Slot) (s : State), s.idleIn .ready → s.allValued → index.toNat < s.count →
    ∃ t, runCommands [.setpx index color, .showFrame] s = .next t ∧
      transmissions t.history = transmissions s.history ++ [enc (s.pixels.set index.toNat color)]

/-- The line signal of a request: eight bits a byte, bytes in order, each in the bit order of the parameter (R56, R179,
informative; log 20). -/
def Obligations.LineSignalOrder : Prop :=
  ∀ (msbFirst : Bool) (bytes : List Byte), (lineBits msbFirst bytes).length = 8 * bytes.length ∧
    ∀ (k j : Nat) (b : Byte), bytes[k]? = some b → j < 8 →
      (lineBits msbFirst bytes)[8 * k + j]? = some (b.getLsbD (if msbFirst then 7 - j else j))

/-! ## The host's direct access to a borrowed buffer -/

/-- A direct write of a slot of a borrowed store changes `P` as a SETPX of the same value would, with no response, and
nothing else (R38); a write beyond the first `N` slots changes nothing of the block (R52, log 13). -/
def Obligations.HostWritesLikeSetpx : Prop :=
  ∀ (index : Nat) (v : Slot) (s : State) (rest : List HostMove), s.waiting = none → s.phase ≠ .halted →
    s.backing = .borrowed → s.host = .writeSlot index v :: rest →
    ∃ t, step s = .next t ∧ t = { s with host := rest, pix := t.pix } ∧
      (∀ j, Memory.read t.pix j = if j = index ∧ index < s.count then some v else Memory.read s.pix j) ∧
      (s.phase = .ready → index < s.count → index < 2 ^ 32 →
        ∃ u, exec (.setpx (BitVec.ofNat 32 index) v) s = .next u ∧ u.pix = t.pix)

/-- A bytewise write of a borrowed buffer changes the store and nothing else, with no response, is read back at its own byte
address and leaves every other byte alone, in either byte order of a slot (R38, R57; the two orders are log 14); a write
beyond the first `N` slots changes nothing of the block (R52, log 13). -/
def Obligations.HostByteRoundTrip : Prop :=
  ∀ (address : Nat) (b : Byte) (s : State) (rest : List HostMove), s.waiting = none → s.phase ≠ .halted →
    s.backing = .borrowed → s.host = .writeByte address b :: rest →
    (s.allValued → address / 4 < s.count →
      ∃ t, step s = .next t ∧ t = { s with host := rest, pix := t.pix } ∧
        (∀ j, j ≠ address / 4 → Memory.read t.pix j = Memory.read s.pix j) ∧
        hostReadByte t address = some b ∧ ∀ a, a ≠ address → hostReadByte t a = hostReadByte s a) ∧
    (s.count ≤ address / 4 → step s = .next { s with host := rest })

/-! ## The whole machine -/

/-- Every state the machine can be constructed in meets the invariant, whatever the draws of its environment; the state
after reset does. -/
def Obligations.ResetMeetsInvariant : Prop :=
  (∀ (p : Params) (buffer : Nat → Slot) (alloc : List (Option AllocAnswer)) (transport : List (Option TransportAnswer)),
    (State.resetOf p buffer alloc transport).Inv) ∧ State.reset.Inv

/-- Every step keeps the invariant. Its clauses on the wait rest on the wait as a field of the state (log 7), and the clause
on an unanswered transmission on the scratch buffer keeping its frame then (log 11). -/
def Obligations.StepKeepsInvariant : Prop :=
  ∀ s t : State, s.Inv → step s = .next t → t.Inv

/-- What reset leaves (R39, R230), at construction and, at any time, in a block that has run, a halted or a waiting one
among them (R207, R230, R232). The waits and the inputs are the model's own (log 4, log 5, log 7, log 25). -/
def Obligations.ResetValues : Prop :=
  (∀ (p : Params) (buffer : Nat → Slot) (alloc : List (Option AllocAnswer)) (transport : List (Option TransportAnswer)),
    let s := State.resetOf p buffer alloc transport
    s.phase = .unready ∧ (s.allocated = true ↔ p.backing = .borrowed) ∧ s.count = p.count ∧ s.backing = p.backing ∧
      s.cfgPin = none ∧ s.cfgBus = none ∧ s.cfgFreq = none ∧ s.handle = .none ∧ s.fault = none ∧
      s.refused = false ∧ s.history = [] ∧ (∀ k, Memory.read s.scratch k = none) ∧
      (∀ i, Memory.read s.pix i = if p.backing = .borrowed ∧ i < p.count then some (buffer i) else none) ∧
      s.waiting = none ∧ s.host = [] ∧ s.allocAnswers = alloc ∧ s.transportAnswers = transport) ∧
  (∀ (s : State) (rest : List HostMove), s.host = .reset :: rest →
    ∃ t, step s = .next t ∧
      t.phase = .unready ∧ (t.allocated = true ↔ s.backing = .borrowed) ∧ t.count = s.count ∧ t.backing = s.backing ∧
      t.cfgPin = none ∧ t.cfgBus = none ∧ t.cfgFreq = none ∧ t.handle = .none ∧ t.fault = none ∧
      t.refused = false ∧ t.history = [] ∧ (∀ k, Memory.read t.scratch k = none) ∧
      (∀ i, Memory.read t.pix i = if s.backing = .borrowed then Memory.read s.pix i else none) ∧
      t.waiting = none ∧ t.host = rest ∧ t.allocAnswers = s.allocAnswers ∧ t.transportAnswers = s.transportAnswers)

/-- R8: a configuration is well formed when all its bounds hold, an ill-formed one has no initial state, and the machine's
own configuration is well formed. -/
def Obligations.IllFormedConfigurationRefused : Prop :=
  (∀ (p : Params) (buffer : Nat → Slot) (alloc : List (Option AllocAnswer)) (transport : List (Option TransportAnswer)),
    State.construct p buffer alloc transport =
    if 1 ≤ p.count ∧ p.count ≤ p.maxCount ∧ 24 * p.count + 1 ≤ p.maxTransferBytes ∧ p.sym1 ≠ p.sym0 ∧
        (p.backing = .borrowed → p.count ≤ p.hostSlots)
    then some (State.resetOf p buffer alloc transport) else none) ∧
  State.construct Config.params Config.hostBuffer Config.allocDraws Config.transportDraws = some State.reset ∧
  Config.sym1 ≠ Config.sym0

/-- The life cycle of PHASE (R23, R230): only an INIT whose every answer is OK leads from Unready to Ready, nothing but
reset leads back to Unready, a fault is recorded on the way to Halted, and no step but a reset changes a halted block. -/
def Obligations.PhaseLifeCycle : Prop :=
  ∀ s t : State, step s = .next t →
    (s.phase = .unready → t.phase = .ready →
      ∃ w rest pin bus freq, s.host = .issue w :: rest ∧ decode w = .ok (.init pin bus freq) ∧ s.canBack ∧
        s.transportAnswer 0 = some .ok ∧ s.transportAnswer 1 = some .ok ∧ s.transportAnswer 2 = some .ok) ∧
    (s.phase ≠ .unready → t.phase = .unready → s.host.head? = some .reset) ∧
    (s.phase ≠ .halted → t.phase = .halted → t.fault.isSome = true ∧ responses t.history = responses s.history) ∧
    (s.phase = .halted → t = s ∨ s.host.head? = some .reset)

/-- What no step but a reset changes or takes back: the refusal mark, an allocated store, an acquired handle; and COUNT and
BACKING, which reset keeps too (R24, R25, R29, R34; that reset keeps them is log 25). -/
def Obligations.NothingIsTakenBack : Prop :=
  ∀ s t : State, step s = .next t →
    t.count = s.count ∧ t.backing = s.backing ∧
      (s.host.head? ≠ some .reset →
        t.refused = s.refused ∧ (s.allocated = true → t.allocated = true) ∧
          (s.handle = .session → t.handle = .session)) ∧
      (s.backing = .borrowed → s.allocated = true → t.allocated = true)

/-- The block only appends to its history; only reset empties it (R31, R230). -/
def Obligations.HistoryOnlyGrows : Prop :=
  ∀ s t : State, step s = .next t → s.history <+: t.history ∨ (s.host.head? = some .reset ∧ t.history = [])

/-- No command reads the history (R31): the outcome with any history is the outcome with an empty one, the history put in
front. -/
def Obligations.HistoryIsNeverRead : Prop :=
  ∀ (i : Instr) (s : State) (h : List Event),
    exec i (s.withHistory h) = mapNext (fun t => t.withHistory (h ++ t.history)) (exec i (s.withHistory []))

/-- R81: a command gives at most one response, under its own opcode; GETPX the slot it read, RGB2PK and HSV2PK the packed
color they computed, all three with status OK; every other command a zero data word. -/
def Obligations.ResponseDataWords : Prop :=
  ∀ (i : Instr) (s t : State), exec i s = .next t →
    responses t.history = responses s.history ∨
      ∃ st d, responses t.history = responses s.history ++ [(opcode i, st, d)] ∧
        match i with
        | .getpx index => st = .ok ∧ Memory.read s.pix index.toNat = some d
        | .rgb2pk r g b => st = .ok ∧ d = pack r g b
        | .hsv2pk hue sat val => st = .ok ∧ d = hsvToPacked hue sat val
        | .init _ _ _ => d = 0#32
        | .setpx _ _ => d = 0#32
        | .setrgb _ _ _ _ => d = 0#32
        | .sethsv _ _ _ _ => d = 0#32
        | .fill _ _ _ => d = 0#32
        | .clear => d = 0#32
        | .showFrame => d = 0#32

/-! ## The assembler -/

/-- The pseudo-instructions assemble to their expansions, and `FILL 0, 0, 0` and `CLEAR` are different words (R91). -/
def Obligations.PseudoInstructions : Prop :=
  (∀ pin bus, assembleWord (.initDefault pin bus) = assembleWord (.init pin bus 8000000)) ∧
  (∀ color, assembleWord (.fillAll color) = assembleWord (.fill color 0 0)) ∧
  (∀ color first, assembleWord (.fillFrom color first) = assembleWord (.fill color first 0)) ∧
  assembleWord .transmit = assembleWord .showFrame ∧
  (∀ index r g b, assembleWord (.setpxRgb index r g b) = assembleWord (.setrgb index r g b)) ∧
  assembleWord (.fill 0 0 0) ≠ assembleWord .clear

/-- The word of every form of R90, as a number: the operands in the source's argument order, each in its field, and an
operand that does not fit its field rejected. -/
def Obligations.AssembledWords : Prop :=
  (∀ pin bus freq, assembleWord (.init pin bus freq) =
    if pin < 2 ^ 32 ∧ bus < 2 ^ 32 ∧ freq < 2 ^ 32 then
      some (BitVec.ofNat 128 (0x01 * 2 ^ 120 + pin * 2 ^ 64 + bus * 2 ^ 32 + freq)) else none) ∧
  (∀ index color, assembleWord (.setpx index color) =
    if index < 2 ^ 32 ∧ color < 2 ^ 32 then
      some (BitVec.ofNat 128 (0x02 * 2 ^ 120 + index * 2 ^ 64 + color)) else none) ∧
  (∀ index r g b, assembleWord (.setrgb index r g b) =
    if index < 2 ^ 32 ∧ r < 2 ^ 8 ∧ g < 2 ^ 8 ∧ b < 2 ^ 8 then
      some (BitVec.ofNat 128 (0x03 * 2 ^ 120 + index * 2 ^ 64 + r * 2 ^ 16 + g * 2 ^ 8 + b)) else none) ∧
  (∀ index hue sat val, assembleWord (.sethsv index hue sat val) =
    if index < 2 ^ 32 ∧ hue < 2 ^ 8 ∧ sat < 2 ^ 8 ∧ val < 2 ^ 8 then
      some (BitVec.ofNat 128 (0x04 * 2 ^ 120 + index * 2 ^ 64 + hue * 2 ^ 16 + sat * 2 ^ 8 + val)) else none) ∧
  (∀ color first cnt, assembleWord (.fill color first cnt) =
    if color < 2 ^ 32 ∧ first < 2 ^ 32 ∧ cnt < 2 ^ 32 then
      some (BitVec.ofNat 128 (0x05 * 2 ^ 120 + first * 2 ^ 64 + cnt * 2 ^ 32 + color)) else none) ∧
  assembleWord .clear = some (BitVec.ofNat 128 (0x06 * 2 ^ 120)) ∧
  assembleWord .showFrame = some (BitVec.ofNat 128 (0x07 * 2 ^ 120)) ∧
  (∀ index, assembleWord (.getpx index) =
    if index < 2 ^ 32 then some (BitVec.ofNat 128 (0x08 * 2 ^ 120 + index * 2 ^ 64)) else none) ∧
  (∀ r g b, assembleWord (.rgb2pk r g b) =
    if r < 2 ^ 8 ∧ g < 2 ^ 8 ∧ b < 2 ^ 8 then
      some (BitVec.ofNat 128 (0x09 * 2 ^ 120 + r * 2 ^ 16 + g * 2 ^ 8 + b)) else none) ∧
  (∀ hue sat val, assembleWord (.hsv2pk hue sat val) =
    if hue < 2 ^ 8 ∧ sat < 2 ^ 8 ∧ val < 2 ^ 8 then
      some (BitVec.ofNat 128 (0x0A * 2 ^ 120 + hue * 2 ^ 16 + sat * 2 ^ 8 + val)) else none)
end

