-- ==== Sys2Proof/Laws/Decode.lean ====
section
/-! SUPPORT. The fields of the command word: what is read back from a word that was built, and that a word is built from
its own parts (spec 30_encoding.md R70, R73, R77). -/

namespace Sys2Proof

/-- Operand slot A of a built word. -/
theorem slotA_commandWord (o : Byte) (a b c : Slot) : slotA (commandWord o a b c) = a := by
  simp only [slotA, commandWord]
  ext i hi
  simp only [BitVec.getElem_extractLsb', BitVec.getLsbD_append]
  have h1 : 64 + i < 24 + (32 + (32 + 32)) := by omega
  have h2 : 64 + i < 32 + (32 + 32) := by omega
  simp [h1, h2, hi]

/-- Operand slot B of a built word. -/
theorem slotB_commandWord (o : Byte) (a b c : Slot) : slotB (commandWord o a b c) = b := by
  simp only [slotB, commandWord]
  ext i hi
  simp only [BitVec.getElem_extractLsb', BitVec.getLsbD_append]
  have h1 : 32 + i < 24 + (32 + (32 + 32)) := by omega
  have h2 : 32 + i < 32 + (32 + 32) := by omega
  have h3 : 32 + i < (32 + 32) := by omega
  simp [h1, h2, h3, hi]

/-- Operand slot C of a built word. -/
theorem slotC_commandWord (o : Byte) (a b c : Slot) : slotC (commandWord o a b c) = c := by
  simp only [slotC, commandWord]
  ext i hi
  simp only [BitVec.getElem_extractLsb', BitVec.getLsbD_append]
  have h1 : 0 + i < 24 + (32 + (32 + 32)) := by omega
  have h2 : 0 + i < 32 + (32 + 32) := by omega
  have h3 : 0 + i < (32 + 32) := by omega
  have h4 : 0 + i < (32) := by omega
  simp only [h1, h2, h3, h4, if_true]; simp [hi]

/-- The component fields are the bytes of slot C (R77). -/
theorem fields_of_slotC (w : CommandWord) :
    topOfC w = (slotC w).extractLsb' 24 8 ∧ component1 w = (slotC w).extractLsb' 16 8 ∧
      component2 w = (slotC w).extractLsb' 8 8 ∧ component3 w = (slotC w).extractLsb' 0 8 := by
  refine ⟨?_,?_,?_,?_⟩ <;>
  · simp only [slotC, topOfC, component1, component2, component3]
    ext i hi
    simp only [BitVec.getElem_extractLsb', BitVec.getLsbD_extractLsb']
    simp; omega

/-- Every bit of a built word (R70). -/
theorem getLsbD_commandWord (o : Byte) (a b c : Slot) (i : Nat) : (commandWord o a b c).getLsbD i =
    if i < 32 then c.getLsbD i else if i < 64 then b.getLsbD (i - 32) else if i < 96 then a.getLsbD (i - 64)
    else if i < 120 then false else o.getLsbD (i - 120) := by
  simp only [commandWord, BitVec.getLsbD_append]
  repeat' split
  all_goals first | omega | rfl | simp

/-- Every bit of three components in slot C (R77). -/
theorem getLsbD_componentsWord (x y z : Byte) (i : Nat) : (componentsWord x y z).getLsbD i =
    if i < 8 then z.getLsbD i else if i < 16 then y.getLsbD (i - 8) else if i < 24 then x.getLsbD (i - 16) else false := by
  simp only [componentsWord, BitVec.getLsbD_append]
  repeat' split
  all_goals first | omega | rfl | simp

/-- Each component is read back from its own byte (R77). -/
theorem componentsWord_fields (x y z : Byte) :
    (componentsWord x y z).extractLsb' 24 8 = 0#8 ∧ (componentsWord x y z).extractLsb' 16 8 = x ∧
      (componentsWord x y z).extractLsb' 8 8 = y ∧ (componentsWord x y z).extractLsb' 0 8 = z := by
  refine ⟨?_,?_,?_,?_⟩ <;>
  · apply BitVec.eq_of_getLsbD_eq
    intro i hi
    simp only [BitVec.getLsbD_extractLsb', getLsbD_componentsWord]
    repeat' split
    all_goals first | omega | simp [hi]

/-- A word with a zero RSVD is the one built from its parts. -/
theorem commandWord_of_parts (w : CommandWord) (h : rsvdOf w = 0#24) : commandWord (opcOf w) (slotA w) (slotB w) (slotC w) = w := by
  have h' : ∀ k, 96 ≤ k → k < 120 → w.getLsbD k = false := by
    intro k h1 h2
    have := congrArg (fun v => v.getLsbD (k - 96)) h
    simp only [rsvdOf, BitVec.getLsbD_extractLsb', BitVec.getLsbD_zero] at this
    have e : 96 + (k - 96) = k := by omega
    rw [e] at this
    simpa [show k - 96 < 24 by omega] using this
  apply BitVec.eq_of_getLsbD_eq
  intro i hi
  rw [getLsbD_commandWord]
  simp only [opcOf, slotA, slotB, slotC, BitVec.getLsbD_extractLsb']
  repeat' split
  · simp; omega
  · rw [show 32 + (i - 32) = i by omega]; simp; omega
  · rw [show 64 + (i - 64) = i by omega]; simp; omega
  · rw [h' i (by omega) (by omega)]
  · rw [show 120 + (i - 120) = i by omega]; simp; omega

/-- A slot C with a zero top byte is the one built from its components. -/
theorem componentsWord_of_parts (w : CommandWord) (h : topOfC w = 0#8) : componentsWord (component1 w) (component2 w) (component3 w) = slotC w := by
  have h' : ∀ k, 24 ≤ k → k < 32 → w.getLsbD k = false := by
    intro k h1 h2
    have := congrArg (fun v => v.getLsbD (k - 24)) h
    simp only [topOfC, BitVec.getLsbD_extractLsb', BitVec.getLsbD_zero] at this
    rw [show 24 + (k - 24) = k by omega] at this
    simpa [show k - 24 < 8 by omega] using this
  apply BitVec.eq_of_getLsbD_eq
  intro i hi
  rw [getLsbD_componentsWord]
  simp only [component1, component2, component3, slotC, BitVec.getLsbD_extractLsb']
  repeat' split
  · simp [hi, show i < 8 by omega]
  · rw [show 8 + (i - 8) = i by omega]; simp [hi, show i - 8 < 8 by omega]
  · rw [show 16 + (i - 16) = i by omega]; simp [hi, show i - 16 < 8 by omega]
  · simp [h' i (by omega) (by omega)]

/-- The one way the zero check passes (R74). -/
theorem whenZero_eq_ok {b : Bool} {i j : Instr} (h : whenZero b i = .ok j) : b = true ∧ i = j := by
  unfold whenZero at h; split at h <;> simp_all

/-- The opcode as a number. -/
theorem opcOf_toNat (w : CommandWord) : (opcOf w).toNat = w.toNat / 2^120 := by
  have := w.isLt
  simp only [opcOf, BitVec.extractLsb'_toNat, Nat.shiftRight_eq_div_pow]
  rw [Nat.mod_eq_of_lt]
  rw [Nat.div_lt_iff_lt_mul (by norm_num)]
  simpa [← pow_add] using this

/-- A field is zero when all of its bits are. -/
theorem extractLsb_eq_zero {w : CommandWord} {lo n : Nat} : w.extractLsb' lo n = 0#n ↔ ∀ i, lo ≤ i → i < lo + n → w.getLsbD i = false := by
  constructor
  · intro h i h1 h2
    have := congrArg (fun v => v.getLsbD (i - lo)) h
    simp only [BitVec.getLsbD_extractLsb', BitVec.getLsbD_zero] at this
    rw [show lo + (i - lo) = i by omega] at this
    simpa [show i - lo < n by omega] using this
  · intro h; apply BitVec.eq_of_getLsbD_eq; intro i hi
    simp [BitVec.getLsbD_extractLsb', h (lo+i) (by omega) (by omega)]

/-- A built word as a number. -/
theorem commandWord_toNat (o : Byte) (a b c : Slot) :
    (commandWord o a b c).toNat = o.toNat * 2 ^ 120 + a.toNat * 2 ^ 64 + b.toNat * 2 ^ 32 + c.toNat := by
  have step : ∀ {m n : Nat} (x : BitVec m) (y : BitVec n), (x ++ y).toNat = x.toNat * 2 ^ n + y.toNat := by
    intro m n x y
    rw [BitVec.toNat_append, Nat.shiftLeft_eq, Nat.mul_comm, ← Nat.two_pow_add_eq_or_of_lt y.isLt, Nat.mul_comm]
  simp only [commandWord, step]
  simp
  omega

end Sys2Proof
end

