-- ==== Sys2Proof/Laws/Memory.lean ====
section
/-! SUPPORT. The laws of memory: what a read finds after a write, and that every operation keeps the canonical form. -/

namespace Sys2Proof.Machine

variable {α : Type}

@[simp] theorem Memory.read_nil (a : Nat) : Memory.read ([] : Memory α) a = none := rfl

theorem Memory.read_cons (k : Nat) (v : α) (m : Memory α) (a : Nat) :
    Memory.read ((k, v) :: m) a = if a = k then some v else Memory.read m a := rfl

/-- A read after a write: the value written at its own address, what was there before at any other. -/
@[simp] theorem Memory.read_write (m : Memory α) (a : Nat) (v : α) (b : Nat) :
    Memory.read (Memory.write m a v) b = if b = a then some v else Memory.read m b := by
  induction m with
  | nil => rfl
  | cons c m ih =>
    obtain ⟨k, x⟩ := c
    by_cases hlt : a < k
    · simp [Memory.write, hlt, Memory.read_cons]
    · by_cases heq : a = k
      · subst heq
        simp [Memory.write, Memory.read_cons]
        split <;> simp_all
      · by_cases hbk : b = k
        · subst hbk
          simp [Memory.write, hlt, heq, Memory.read_cons, Ne.symm heq]
        · simp [Memory.write, hlt, heq, Memory.read_cons, hbk, ih]

/-- Reading after a run of writes: inside the run, its element; outside, what was there before. -/
theorem Memory.read_writeFrom (vs : List α) (m : Memory α) (base b : Nat) :
    Memory.read (Memory.writeFrom m base vs) b =
      if base ≤ b ∧ b < base + vs.length then vs[b - base]? else Memory.read m b := by
  induction vs generalizing m base with
  | nil => simp [Memory.writeFrom]
  | cons v vs ih =>
    rw [Memory.writeFrom, ih, Memory.read_write]
    rcases Nat.lt_trichotomy b base with h | h | h
    · rw [if_neg (by omega), if_neg (by omega), if_neg (by simp; omega)]
    · subst h
      rw [if_neg (by omega), if_pos rfl, if_pos (by simp)]
      simp
    · have hs : b - base = (b - (base + 1)) + 1 := by omega
      by_cases hb : b < base + 1 + vs.length
      · rw [if_pos (by omega), if_pos (by simp; omega), hs, List.getElem?_cons_succ]
      · rw [if_neg (by omega), if_neg (by omega), if_neg (by simp; omega)]

/-- Reading after a fill. -/
@[simp] theorem Memory.read_fill (m : Memory α) (first len : Nat) (v : α) (b : Nat) :
    Memory.read (Memory.fill m first len v) b =
      if first ≤ b ∧ b < first + len then some v else Memory.read m b := by
  rw [Memory.fill, Memory.read_writeFrom]
  simp only [List.length_replicate]
  split
  · rename_i h
    rw [List.getElem?_replicate, if_pos (by omega)]
  · rfl

theorem Memory.mem_write {m : Memory α} {a : Nat} {v : α} {c : Nat × α} (h : c ∈ Memory.write m a v) :
    c = (a, v) ∨ c ∈ m := by
  induction m with
  | nil => simpa [Memory.write] using h
  | cons d m ih =>
    obtain ⟨k, x⟩ := d
    simp only [Memory.write] at h
    split at h
    · simpa using h
    · split at h
      · rcases List.mem_cons.1 h with h | h
        · exact .inl h
        · exact .inr (List.mem_cons_of_mem _ h)
      · rcases List.mem_cons.1 h with h | h
        · exact .inr (by simp [h])
        · rcases ih h with h | h
          · exact .inl h
          · exact .inr (List.mem_cons_of_mem _ h)

/-- A write keeps the canonical form. -/
theorem Memory.wf_write {m : Memory α} (h : Memory.wf m) (a : Nat) (v : α) : Memory.wf (Memory.write m a v) := by
  induction m with
  | nil => simp [Memory.write, Memory.wf]
  | cons d m ih =>
    obtain ⟨k, x⟩ := d
    obtain ⟨hk, hm⟩ := List.pairwise_cons.1 h
    simp only [Memory.write]
    split
    · rename_i hlt
      refine List.pairwise_cons.2 ⟨fun c hc => ?_, h⟩
      rcases List.mem_cons.1 hc with rfl | hc
      · exact hlt
      · exact Nat.lt_trans hlt (hk c hc)
    · split
      · rename_i heq
        subst heq
        exact List.pairwise_cons.2 ⟨fun c hc => hk c hc, hm⟩
      · refine List.pairwise_cons.2 ⟨fun c hc => ?_, ih hm⟩
        rcases Memory.mem_write hc with rfl | hc
        · show k < a
          omega
        · exact hk c hc

theorem Memory.wf_writeFrom {m : Memory α} (h : Memory.wf m) (base : Nat) (vs : List α) :
    Memory.wf (Memory.writeFrom m base vs) := by
  induction vs generalizing m base with
  | nil => exact h
  | cons v vs ih => exact ih (Memory.wf_write h base v) (base + 1)

theorem Memory.wf_fill {m : Memory α} (h : Memory.wf m) (first len : Nat) (v : α) :
    Memory.wf (Memory.fill m first len v) :=
  Memory.wf_writeFrom h first _

/-- A write below a bound keeps every address below it. -/
theorem Memory.below_write {m : Memory α} {n : Nat} (h : Memory.below m n) {a : Nat} (ha : a < n) (v : α) :
    Memory.below (Memory.write m a v) n := by
  intro c hc
  rcases Memory.mem_write hc with rfl | hc
  · exact ha
  · exact h c hc

theorem Memory.below_writeFrom {m : Memory α} {n : Nat} (h : Memory.below m n) {base : Nat} {vs : List α}
    (hb : base + vs.length ≤ n) : Memory.below (Memory.writeFrom m base vs) n := by
  induction vs generalizing m base with
  | nil => exact h
  | cons v vs ih =>
    simp only [List.length_cons] at hb
    exact ih (Memory.below_write h (by omega) v) (by omega)

theorem Memory.below_fill {m : Memory α} {n : Nat} (h : Memory.below m n) {first len : Nat} (hb : first + len ≤ n) (v : α) :
    Memory.below (Memory.fill m first len v) n :=
  Memory.below_writeFrom h (by simpa using hb)

/-- In a memory below `n` an address from `n` on holds no value. -/
theorem Memory.read_of_below {m : Memory α} {n : Nat} (h : Memory.below m n) {a : Nat} (ha : n ≤ a) :
    Memory.read m a = none := by
  induction m with
  | nil => rfl
  | cons c m ih =>
    obtain ⟨k, x⟩ := c
    have hk : k < n := h (k, x) (by simp)
    rw [Memory.read_cons, if_neg (by omega)]
    exact ih fun c hc => h c (List.mem_cons_of_mem _ hc)

/-- The list of a range of cells in order is in canonical form. -/
theorem Memory.wf_ofRange (n : Nat) (f : Nat → α) : Memory.wf ((List.range n).map fun i => (i, f i)) := by
  rw [Memory.wf, List.pairwise_map]
  exact List.pairwise_lt_range

theorem Memory.read_ofRange (n : Nat) (f : Nat → α) (a : Nat) :
    Memory.read ((List.range n).map fun i => (i, f i)) a = if a < n then some (f a) else none := by
  suffices h : ∀ l : List Nat, Memory.read (l.map fun i => (i, f i)) a = if a ∈ l then some (f a) else none by
    simpa using h (List.range n)
  intro l
  induction l with
  | nil => rfl
  | cons k l ih =>
    rw [List.map_cons, Memory.read_cons, ih]
    by_cases h : a = k
    · subst h; simp
    · simp [h]

end Sys2Proof.Machine
end

