-- ==== Sys2Proof/Laws/State.lean ====
section
/-! SUPPORT. What each named update of the state leaves in each field: one lemma per field per update, each true by
definition. -/

namespace Sys2Proof.Machine

@[simp] theorem State.emit_phase (s : State) (e : Event) : (s.emit e).phase = s.phase := rfl
@[simp] theorem State.emit_allocated (s : State) (e : Event) : (s.emit e).allocated = s.allocated := rfl
@[simp] theorem State.emit_count (s : State) (e : Event) : (s.emit e).count = s.count := rfl
@[simp] theorem State.emit_backing (s : State) (e : Event) : (s.emit e).backing = s.backing := rfl
@[simp] theorem State.emit_cfgPin (s : State) (e : Event) : (s.emit e).cfgPin = s.cfgPin := rfl
@[simp] theorem State.emit_cfgBus (s : State) (e : Event) : (s.emit e).cfgBus = s.cfgBus := rfl
@[simp] theorem State.emit_cfgFreq (s : State) (e : Event) : (s.emit e).cfgFreq = s.cfgFreq := rfl
@[simp] theorem State.emit_handle (s : State) (e : Event) : (s.emit e).handle = s.handle := rfl
@[simp] theorem State.emit_pix (s : State) (e : Event) : (s.emit e).pix = s.pix := rfl
@[simp] theorem State.emit_scratch (s : State) (e : Event) : (s.emit e).scratch = s.scratch := rfl
@[simp] theorem State.emit_fault (s : State) (e : Event) : (s.emit e).fault = s.fault := rfl
@[simp] theorem State.emit_refused (s : State) (e : Event) : (s.emit e).refused = s.refused := rfl
@[simp] theorem State.emit_history (s : State) (e : Event) : (s.emit e).history = s.history ++ [e] := rfl
@[simp] theorem State.emit_waiting (s : State) (e : Event) : (s.emit e).waiting = s.waiting := rfl
@[simp] theorem State.emit_host (s : State) (e : Event) : (s.emit e).host = s.host := rfl
@[simp] theorem State.emit_allocAnswers (s : State) (e : Event) : (s.emit e).allocAnswers = s.allocAnswers := rfl
@[simp] theorem State.emit_transportAnswers (s : State) (e : Event) : (s.emit e).transportAnswers = s.transportAnswers := rfl

@[simp] theorem State.respond_phase (s : State) (o : Byte) (st : Status) (d : Slot) : (s.respond o st d).phase = s.phase := rfl
@[simp] theorem State.respond_allocated (s : State) (o : Byte) (st : Status) (d : Slot) : (s.respond o st d).allocated = s.allocated := rfl
@[simp] theorem State.respond_count (s : State) (o : Byte) (st : Status) (d : Slot) : (s.respond o st d).count = s.count := rfl
@[simp] theorem State.respond_backing (s : State) (o : Byte) (st : Status) (d : Slot) : (s.respond o st d).backing = s.backing := rfl
@[simp] theorem State.respond_cfgPin (s : State) (o : Byte) (st : Status) (d : Slot) : (s.respond o st d).cfgPin = s.cfgPin := rfl
@[simp] theorem State.respond_cfgBus (s : State) (o : Byte) (st : Status) (d : Slot) : (s.respond o st d).cfgBus = s.cfgBus := rfl
@[simp] theorem State.respond_cfgFreq (s : State) (o : Byte) (st : Status) (d : Slot) : (s.respond o st d).cfgFreq = s.cfgFreq := rfl
@[simp] theorem State.respond_handle (s : State) (o : Byte) (st : Status) (d : Slot) : (s.respond o st d).handle = s.handle := rfl
@[simp] theorem State.respond_pix (s : State) (o : Byte) (st : Status) (d : Slot) : (s.respond o st d).pix = s.pix := rfl
@[simp] theorem State.respond_scratch (s : State) (o : Byte) (st : Status) (d : Slot) : (s.respond o st d).scratch = s.scratch := rfl
@[simp] theorem State.respond_fault (s : State) (o : Byte) (st : Status) (d : Slot) : (s.respond o st d).fault = s.fault := rfl
@[simp] theorem State.respond_refused (s : State) (o : Byte) (st : Status) (d : Slot) : (s.respond o st d).refused = s.refused := rfl
@[simp] theorem State.respond_history (s : State) (o : Byte) (st : Status) (d : Slot) : (s.respond o st d).history = s.history ++ [.resp o st d] := rfl
@[simp] theorem State.respond_waiting (s : State) (o : Byte) (st : Status) (d : Slot) : (s.respond o st d).waiting = s.waiting := rfl
@[simp] theorem State.respond_host (s : State) (o : Byte) (st : Status) (d : Slot) : (s.respond o st d).host = s.host := rfl
@[simp] theorem State.respond_allocAnswers (s : State) (o : Byte) (st : Status) (d : Slot) : (s.respond o st d).allocAnswers = s.allocAnswers := rfl
@[simp] theorem State.respond_transportAnswers (s : State) (o : Byte) (st : Status) (d : Slot) : (s.respond o st d).transportAnswers = s.transportAnswers := rfl

@[simp] theorem State.halt_phase (s : State) (r : FaultReason) : (s.halt r).phase = .halted := rfl
@[simp] theorem State.halt_allocated (s : State) (r : FaultReason) : (s.halt r).allocated = s.allocated := rfl
@[simp] theorem State.halt_count (s : State) (r : FaultReason) : (s.halt r).count = s.count := rfl
@[simp] theorem State.halt_backing (s : State) (r : FaultReason) : (s.halt r).backing = s.backing := rfl
@[simp] theorem State.halt_cfgPin (s : State) (r : FaultReason) : (s.halt r).cfgPin = s.cfgPin := rfl
@[simp] theorem State.halt_cfgBus (s : State) (r : FaultReason) : (s.halt r).cfgBus = s.cfgBus := rfl
@[simp] theorem State.halt_cfgFreq (s : State) (r : FaultReason) : (s.halt r).cfgFreq = s.cfgFreq := rfl
@[simp] theorem State.halt_handle (s : State) (r : FaultReason) : (s.halt r).handle = s.handle := rfl
@[simp] theorem State.halt_pix (s : State) (r : FaultReason) : (s.halt r).pix = s.pix := rfl
@[simp] theorem State.halt_scratch (s : State) (r : FaultReason) : (s.halt r).scratch = s.scratch := rfl
@[simp] theorem State.halt_fault (s : State) (r : FaultReason) : (s.halt r).fault = some r := rfl
@[simp] theorem State.halt_refused (s : State) (r : FaultReason) : (s.halt r).refused = s.refused := rfl
@[simp] theorem State.halt_history (s : State) (r : FaultReason) : (s.halt r).history = s.history := rfl
@[simp] theorem State.halt_waiting (s : State) (r : FaultReason) : (s.halt r).waiting = s.waiting := rfl
@[simp] theorem State.halt_host (s : State) (r : FaultReason) : (s.halt r).host = s.host := rfl
@[simp] theorem State.halt_allocAnswers (s : State) (r : FaultReason) : (s.halt r).allocAnswers = s.allocAnswers := rfl
@[simp] theorem State.halt_transportAnswers (s : State) (r : FaultReason) : (s.halt r).transportAnswers = s.transportAnswers := rfl

@[simp] theorem State.waitFor_phase (s : State) (r : Request) : (s.waitFor r).phase = s.phase := rfl
@[simp] theorem State.waitFor_allocated (s : State) (r : Request) : (s.waitFor r).allocated = s.allocated := rfl
@[simp] theorem State.waitFor_count (s : State) (r : Request) : (s.waitFor r).count = s.count := rfl
@[simp] theorem State.waitFor_backing (s : State) (r : Request) : (s.waitFor r).backing = s.backing := rfl
@[simp] theorem State.waitFor_cfgPin (s : State) (r : Request) : (s.waitFor r).cfgPin = s.cfgPin := rfl
@[simp] theorem State.waitFor_cfgBus (s : State) (r : Request) : (s.waitFor r).cfgBus = s.cfgBus := rfl
@[simp] theorem State.waitFor_cfgFreq (s : State) (r : Request) : (s.waitFor r).cfgFreq = s.cfgFreq := rfl
@[simp] theorem State.waitFor_handle (s : State) (r : Request) : (s.waitFor r).handle = s.handle := rfl
@[simp] theorem State.waitFor_pix (s : State) (r : Request) : (s.waitFor r).pix = s.pix := rfl
@[simp] theorem State.waitFor_scratch (s : State) (r : Request) : (s.waitFor r).scratch = s.scratch := rfl
@[simp] theorem State.waitFor_fault (s : State) (r : Request) : (s.waitFor r).fault = s.fault := rfl
@[simp] theorem State.waitFor_refused (s : State) (r : Request) : (s.waitFor r).refused = s.refused := rfl
@[simp] theorem State.waitFor_history (s : State) (r : Request) : (s.waitFor r).history = s.history := rfl
@[simp] theorem State.waitFor_waiting (s : State) (r : Request) : (s.waitFor r).waiting = some r := rfl
@[simp] theorem State.waitFor_host (s : State) (r : Request) : (s.waitFor r).host = s.host := rfl
@[simp] theorem State.waitFor_allocAnswers (s : State) (r : Request) : (s.waitFor r).allocAnswers = s.allocAnswers := rfl
@[simp] theorem State.waitFor_transportAnswers (s : State) (r : Request) : (s.waitFor r).transportAnswers = s.transportAnswers := rfl

@[simp] theorem State.setPix_phase (s : State) (m : Memory Slot) : (s.setPix m).phase = s.phase := rfl
@[simp] theorem State.setPix_allocated (s : State) (m : Memory Slot) : (s.setPix m).allocated = s.allocated := rfl
@[simp] theorem State.setPix_count (s : State) (m : Memory Slot) : (s.setPix m).count = s.count := rfl
@[simp] theorem State.setPix_backing (s : State) (m : Memory Slot) : (s.setPix m).backing = s.backing := rfl
@[simp] theorem State.setPix_cfgPin (s : State) (m : Memory Slot) : (s.setPix m).cfgPin = s.cfgPin := rfl
@[simp] theorem State.setPix_cfgBus (s : State) (m : Memory Slot) : (s.setPix m).cfgBus = s.cfgBus := rfl
@[simp] theorem State.setPix_cfgFreq (s : State) (m : Memory Slot) : (s.setPix m).cfgFreq = s.cfgFreq := rfl
@[simp] theorem State.setPix_handle (s : State) (m : Memory Slot) : (s.setPix m).handle = s.handle := rfl
@[simp] theorem State.setPix_pix (s : State) (m : Memory Slot) : (s.setPix m).pix = m := rfl
@[simp] theorem State.setPix_scratch (s : State) (m : Memory Slot) : (s.setPix m).scratch = s.scratch := rfl
@[simp] theorem State.setPix_fault (s : State) (m : Memory Slot) : (s.setPix m).fault = s.fault := rfl
@[simp] theorem State.setPix_refused (s : State) (m : Memory Slot) : (s.setPix m).refused = s.refused := rfl
@[simp] theorem State.setPix_history (s : State) (m : Memory Slot) : (s.setPix m).history = s.history := rfl
@[simp] theorem State.setPix_waiting (s : State) (m : Memory Slot) : (s.setPix m).waiting = s.waiting := rfl
@[simp] theorem State.setPix_host (s : State) (m : Memory Slot) : (s.setPix m).host = s.host := rfl
@[simp] theorem State.setPix_allocAnswers (s : State) (m : Memory Slot) : (s.setPix m).allocAnswers = s.allocAnswers := rfl
@[simp] theorem State.setPix_transportAnswers (s : State) (m : Memory Slot) : (s.setPix m).transportAnswers = s.transportAnswers := rfl

@[simp] theorem State.setScratch_phase (s : State) (m : List Host.Cell) : (s.setScratch m).phase = s.phase := rfl
@[simp] theorem State.setScratch_allocated (s : State) (m : List Host.Cell) : (s.setScratch m).allocated = s.allocated := rfl
@[simp] theorem State.setScratch_count (s : State) (m : List Host.Cell) : (s.setScratch m).count = s.count := rfl
@[simp] theorem State.setScratch_backing (s : State) (m : List Host.Cell) : (s.setScratch m).backing = s.backing := rfl
@[simp] theorem State.setScratch_cfgPin (s : State) (m : List Host.Cell) : (s.setScratch m).cfgPin = s.cfgPin := rfl
@[simp] theorem State.setScratch_cfgBus (s : State) (m : List Host.Cell) : (s.setScratch m).cfgBus = s.cfgBus := rfl
@[simp] theorem State.setScratch_cfgFreq (s : State) (m : List Host.Cell) : (s.setScratch m).cfgFreq = s.cfgFreq := rfl
@[simp] theorem State.setScratch_handle (s : State) (m : List Host.Cell) : (s.setScratch m).handle = s.handle := rfl
@[simp] theorem State.setScratch_pix (s : State) (m : List Host.Cell) : (s.setScratch m).pix = s.pix := rfl
@[simp] theorem State.setScratch_scratch (s : State) (m : List Host.Cell) : (s.setScratch m).scratch = m := rfl
@[simp] theorem State.setScratch_fault (s : State) (m : List Host.Cell) : (s.setScratch m).fault = s.fault := rfl
@[simp] theorem State.setScratch_refused (s : State) (m : List Host.Cell) : (s.setScratch m).refused = s.refused := rfl
@[simp] theorem State.setScratch_history (s : State) (m : List Host.Cell) : (s.setScratch m).history = s.history := rfl
@[simp] theorem State.setScratch_waiting (s : State) (m : List Host.Cell) : (s.setScratch m).waiting = s.waiting := rfl
@[simp] theorem State.setScratch_host (s : State) (m : List Host.Cell) : (s.setScratch m).host = s.host := rfl
@[simp] theorem State.setScratch_allocAnswers (s : State) (m : List Host.Cell) : (s.setScratch m).allocAnswers = s.allocAnswers := rfl
@[simp] theorem State.setScratch_transportAnswers (s : State) (m : List Host.Cell) : (s.setScratch m).transportAnswers = s.transportAnswers := rfl

@[simp] theorem State.setConfig_phase (s : State) (p b f : Slot) : (s.setConfig p b f).phase = s.phase := rfl
@[simp] theorem State.setConfig_allocated (s : State) (p b f : Slot) : (s.setConfig p b f).allocated = s.allocated := rfl
@[simp] theorem State.setConfig_count (s : State) (p b f : Slot) : (s.setConfig p b f).count = s.count := rfl
@[simp] theorem State.setConfig_backing (s : State) (p b f : Slot) : (s.setConfig p b f).backing = s.backing := rfl
@[simp] theorem State.setConfig_cfgPin (s : State) (p b f : Slot) : (s.setConfig p b f).cfgPin = some p := rfl
@[simp] theorem State.setConfig_cfgBus (s : State) (p b f : Slot) : (s.setConfig p b f).cfgBus = some b := rfl
@[simp] theorem State.setConfig_cfgFreq (s : State) (p b f : Slot) : (s.setConfig p b f).cfgFreq = some f := rfl
@[simp] theorem State.setConfig_handle (s : State) (p b f : Slot) : (s.setConfig p b f).handle = s.handle := rfl
@[simp] theorem State.setConfig_pix (s : State) (p b f : Slot) : (s.setConfig p b f).pix = s.pix := rfl
@[simp] theorem State.setConfig_scratch (s : State) (p b f : Slot) : (s.setConfig p b f).scratch = s.scratch := rfl
@[simp] theorem State.setConfig_fault (s : State) (p b f : Slot) : (s.setConfig p b f).fault = s.fault := rfl
@[simp] theorem State.setConfig_refused (s : State) (p b f : Slot) : (s.setConfig p b f).refused = s.refused := rfl
@[simp] theorem State.setConfig_history (s : State) (p b f : Slot) : (s.setConfig p b f).history = s.history := rfl
@[simp] theorem State.setConfig_waiting (s : State) (p b f : Slot) : (s.setConfig p b f).waiting = s.waiting := rfl
@[simp] theorem State.setConfig_host (s : State) (p b f : Slot) : (s.setConfig p b f).host = s.host := rfl
@[simp] theorem State.setConfig_allocAnswers (s : State) (p b f : Slot) : (s.setConfig p b f).allocAnswers = s.allocAnswers := rfl
@[simp] theorem State.setConfig_transportAnswers (s : State) (p b f : Slot) : (s.setConfig p b f).transportAnswers = s.transportAnswers := rfl

@[simp] theorem State.attach_phase (s : State) : (s.attach).phase = s.phase := rfl
@[simp] theorem State.attach_allocated (s : State) : (s.attach).allocated = s.allocated := rfl
@[simp] theorem State.attach_count (s : State) : (s.attach).count = s.count := rfl
@[simp] theorem State.attach_backing (s : State) : (s.attach).backing = s.backing := rfl
@[simp] theorem State.attach_cfgPin (s : State) : (s.attach).cfgPin = s.cfgPin := rfl
@[simp] theorem State.attach_cfgBus (s : State) : (s.attach).cfgBus = s.cfgBus := rfl
@[simp] theorem State.attach_cfgFreq (s : State) : (s.attach).cfgFreq = s.cfgFreq := rfl
@[simp] theorem State.attach_handle (s : State) : (s.attach).handle = .session := rfl
@[simp] theorem State.attach_pix (s : State) : (s.attach).pix = s.pix := rfl
@[simp] theorem State.attach_scratch (s : State) : (s.attach).scratch = s.scratch := rfl
@[simp] theorem State.attach_fault (s : State) : (s.attach).fault = s.fault := rfl
@[simp] theorem State.attach_refused (s : State) : (s.attach).refused = s.refused := rfl
@[simp] theorem State.attach_history (s : State) : (s.attach).history = s.history := rfl
@[simp] theorem State.attach_waiting (s : State) : (s.attach).waiting = s.waiting := rfl
@[simp] theorem State.attach_host (s : State) : (s.attach).host = s.host := rfl
@[simp] theorem State.attach_allocAnswers (s : State) : (s.attach).allocAnswers = s.allocAnswers := rfl
@[simp] theorem State.attach_transportAnswers (s : State) : (s.attach).transportAnswers = s.transportAnswers := rfl

@[simp] theorem State.enterReady_phase (s : State) : (s.enterReady).phase = .ready := rfl
@[simp] theorem State.enterReady_allocated (s : State) : (s.enterReady).allocated = s.allocated := rfl
@[simp] theorem State.enterReady_count (s : State) : (s.enterReady).count = s.count := rfl
@[simp] theorem State.enterReady_backing (s : State) : (s.enterReady).backing = s.backing := rfl
@[simp] theorem State.enterReady_cfgPin (s : State) : (s.enterReady).cfgPin = s.cfgPin := rfl
@[simp] theorem State.enterReady_cfgBus (s : State) : (s.enterReady).cfgBus = s.cfgBus := rfl
@[simp] theorem State.enterReady_cfgFreq (s : State) : (s.enterReady).cfgFreq = s.cfgFreq := rfl
@[simp] theorem State.enterReady_handle (s : State) : (s.enterReady).handle = s.handle := rfl
@[simp] theorem State.enterReady_pix (s : State) : (s.enterReady).pix = s.pix := rfl
@[simp] theorem State.enterReady_scratch (s : State) : (s.enterReady).scratch = s.scratch := rfl
@[simp] theorem State.enterReady_fault (s : State) : (s.enterReady).fault = s.fault := rfl
@[simp] theorem State.enterReady_refused (s : State) : (s.enterReady).refused = s.refused := rfl
@[simp] theorem State.enterReady_history (s : State) : (s.enterReady).history = s.history := rfl
@[simp] theorem State.enterReady_waiting (s : State) : (s.enterReady).waiting = s.waiting := rfl
@[simp] theorem State.enterReady_host (s : State) : (s.enterReady).host = s.host := rfl
@[simp] theorem State.enterReady_allocAnswers (s : State) : (s.enterReady).allocAnswers = s.allocAnswers := rfl
@[simp] theorem State.enterReady_transportAnswers (s : State) : (s.enterReady).transportAnswers = s.transportAnswers := rfl

@[simp] theorem State.backStore_phase (s : State) : (s.backStore).phase = s.phase := rfl
@[simp] theorem State.backStore_allocated (s : State) : (s.backStore).allocated = true := rfl
@[simp] theorem State.backStore_count (s : State) : (s.backStore).count = s.count := rfl
@[simp] theorem State.backStore_backing (s : State) : (s.backStore).backing = s.backing := rfl
@[simp] theorem State.backStore_cfgPin (s : State) : (s.backStore).cfgPin = s.cfgPin := rfl
@[simp] theorem State.backStore_cfgBus (s : State) : (s.backStore).cfgBus = s.cfgBus := rfl
@[simp] theorem State.backStore_cfgFreq (s : State) : (s.backStore).cfgFreq = s.cfgFreq := rfl
@[simp] theorem State.backStore_handle (s : State) : (s.backStore).handle = s.handle := rfl
@[simp] theorem State.backStore_pix (s : State) : (s.backStore).pix = [] := rfl
@[simp] theorem State.backStore_scratch (s : State) : (s.backStore).scratch = s.scratch := rfl
@[simp] theorem State.backStore_fault (s : State) : (s.backStore).fault = s.fault := rfl
@[simp] theorem State.backStore_refused (s : State) : (s.backStore).refused = s.refused := rfl
@[simp] theorem State.backStore_history (s : State) : (s.backStore).history = s.history := rfl
@[simp] theorem State.backStore_waiting (s : State) : (s.backStore).waiting = s.waiting := rfl
@[simp] theorem State.backStore_host (s : State) : (s.backStore).host = s.host := rfl
@[simp] theorem State.backStore_allocAnswers (s : State) : (s.backStore).allocAnswers = s.allocAnswers := rfl
@[simp] theorem State.backStore_transportAnswers (s : State) : (s.backStore).transportAnswers = s.transportAnswers := rfl

@[simp] theorem State.dropAllocAnswer_phase (s : State) : (s.dropAllocAnswer).phase = s.phase := rfl
@[simp] theorem State.dropAllocAnswer_allocated (s : State) : (s.dropAllocAnswer).allocated = s.allocated := rfl
@[simp] theorem State.dropAllocAnswer_count (s : State) : (s.dropAllocAnswer).count = s.count := rfl
@[simp] theorem State.dropAllocAnswer_backing (s : State) : (s.dropAllocAnswer).backing = s.backing := rfl
@[simp] theorem State.dropAllocAnswer_cfgPin (s : State) : (s.dropAllocAnswer).cfgPin = s.cfgPin := rfl
@[simp] theorem State.dropAllocAnswer_cfgBus (s : State) : (s.dropAllocAnswer).cfgBus = s.cfgBus := rfl
@[simp] theorem State.dropAllocAnswer_cfgFreq (s : State) : (s.dropAllocAnswer).cfgFreq = s.cfgFreq := rfl
@[simp] theorem State.dropAllocAnswer_handle (s : State) : (s.dropAllocAnswer).handle = s.handle := rfl
@[simp] theorem State.dropAllocAnswer_pix (s : State) : (s.dropAllocAnswer).pix = s.pix := rfl
@[simp] theorem State.dropAllocAnswer_scratch (s : State) : (s.dropAllocAnswer).scratch = s.scratch := rfl
@[simp] theorem State.dropAllocAnswer_fault (s : State) : (s.dropAllocAnswer).fault = s.fault := rfl
@[simp] theorem State.dropAllocAnswer_refused (s : State) : (s.dropAllocAnswer).refused = s.refused := rfl
@[simp] theorem State.dropAllocAnswer_history (s : State) : (s.dropAllocAnswer).history = s.history := rfl
@[simp] theorem State.dropAllocAnswer_waiting (s : State) : (s.dropAllocAnswer).waiting = s.waiting := rfl
@[simp] theorem State.dropAllocAnswer_host (s : State) : (s.dropAllocAnswer).host = s.host := rfl
@[simp] theorem State.dropAllocAnswer_allocAnswers (s : State) : (s.dropAllocAnswer).allocAnswers = s.allocAnswers.tail := rfl
@[simp] theorem State.dropAllocAnswer_transportAnswers (s : State) : (s.dropAllocAnswer).transportAnswers = s.transportAnswers := rfl

@[simp] theorem State.dropTransportAnswer_phase (s : State) : (s.dropTransportAnswer).phase = s.phase := rfl
@[simp] theorem State.dropTransportAnswer_allocated (s : State) : (s.dropTransportAnswer).allocated = s.allocated := rfl
@[simp] theorem State.dropTransportAnswer_count (s : State) : (s.dropTransportAnswer).count = s.count := rfl
@[simp] theorem State.dropTransportAnswer_backing (s : State) : (s.dropTransportAnswer).backing = s.backing := rfl
@[simp] theorem State.dropTransportAnswer_cfgPin (s : State) : (s.dropTransportAnswer).cfgPin = s.cfgPin := rfl
@[simp] theorem State.dropTransportAnswer_cfgBus (s : State) : (s.dropTransportAnswer).cfgBus = s.cfgBus := rfl
@[simp] theorem State.dropTransportAnswer_cfgFreq (s : State) : (s.dropTransportAnswer).cfgFreq = s.cfgFreq := rfl
@[simp] theorem State.dropTransportAnswer_handle (s : State) : (s.dropTransportAnswer).handle = s.handle := rfl
@[simp] theorem State.dropTransportAnswer_pix (s : State) : (s.dropTransportAnswer).pix = s.pix := rfl
@[simp] theorem State.dropTransportAnswer_scratch (s : State) : (s.dropTransportAnswer).scratch = s.scratch := rfl
@[simp] theorem State.dropTransportAnswer_fault (s : State) : (s.dropTransportAnswer).fault = s.fault := rfl
@[simp] theorem State.dropTransportAnswer_refused (s : State) : (s.dropTransportAnswer).refused = s.refused := rfl
@[simp] theorem State.dropTransportAnswer_history (s : State) : (s.dropTransportAnswer).history = s.history := rfl
@[simp] theorem State.dropTransportAnswer_waiting (s : State) : (s.dropTransportAnswer).waiting = s.waiting := rfl
@[simp] theorem State.dropTransportAnswer_host (s : State) : (s.dropTransportAnswer).host = s.host := rfl
@[simp] theorem State.dropTransportAnswer_allocAnswers (s : State) : (s.dropTransportAnswer).allocAnswers = s.allocAnswers := rfl
@[simp] theorem State.dropTransportAnswer_transportAnswers (s : State) : (s.dropTransportAnswer).transportAnswers = s.transportAnswers.tail := rfl

@[simp] theorem State.dropHostMove_phase (s : State) : (s.dropHostMove).phase = s.phase := rfl
@[simp] theorem State.dropHostMove_allocated (s : State) : (s.dropHostMove).allocated = s.allocated := rfl
@[simp] theorem State.dropHostMove_count (s : State) : (s.dropHostMove).count = s.count := rfl
@[simp] theorem State.dropHostMove_backing (s : State) : (s.dropHostMove).backing = s.backing := rfl
@[simp] theorem State.dropHostMove_cfgPin (s : State) : (s.dropHostMove).cfgPin = s.cfgPin := rfl
@[simp] theorem State.dropHostMove_cfgBus (s : State) : (s.dropHostMove).cfgBus = s.cfgBus := rfl
@[simp] theorem State.dropHostMove_cfgFreq (s : State) : (s.dropHostMove).cfgFreq = s.cfgFreq := rfl
@[simp] theorem State.dropHostMove_handle (s : State) : (s.dropHostMove).handle = s.handle := rfl
@[simp] theorem State.dropHostMove_pix (s : State) : (s.dropHostMove).pix = s.pix := rfl
@[simp] theorem State.dropHostMove_scratch (s : State) : (s.dropHostMove).scratch = s.scratch := rfl
@[simp] theorem State.dropHostMove_fault (s : State) : (s.dropHostMove).fault = s.fault := rfl
@[simp] theorem State.dropHostMove_refused (s : State) : (s.dropHostMove).refused = s.refused := rfl
@[simp] theorem State.dropHostMove_history (s : State) : (s.dropHostMove).history = s.history := rfl
@[simp] theorem State.dropHostMove_waiting (s : State) : (s.dropHostMove).waiting = s.waiting := rfl
@[simp] theorem State.dropHostMove_host (s : State) : (s.dropHostMove).host = s.host.tail := rfl
@[simp] theorem State.dropHostMove_allocAnswers (s : State) : (s.dropHostMove).allocAnswers = s.allocAnswers := rfl
@[simp] theorem State.dropHostMove_transportAnswers (s : State) : (s.dropHostMove).transportAnswers = s.transportAnswers := rfl

@[simp] theorem State.clearStore_phase (s : State) : (s.clearStore).phase = s.phase := rfl
@[simp] theorem State.clearStore_allocated (s : State) : (s.clearStore).allocated = s.allocated := rfl
@[simp] theorem State.clearStore_count (s : State) : (s.clearStore).count = s.count := rfl
@[simp] theorem State.clearStore_backing (s : State) : (s.clearStore).backing = s.backing := rfl
@[simp] theorem State.clearStore_cfgPin (s : State) : (s.clearStore).cfgPin = s.cfgPin := rfl
@[simp] theorem State.clearStore_cfgBus (s : State) : (s.clearStore).cfgBus = s.cfgBus := rfl
@[simp] theorem State.clearStore_cfgFreq (s : State) : (s.clearStore).cfgFreq = s.cfgFreq := rfl
@[simp] theorem State.clearStore_handle (s : State) : (s.clearStore).handle = s.handle := rfl
@[simp] theorem State.clearStore_pix (s : State) : (s.clearStore).pix = Memory.fill s.pix 0 s.count 0#32 := rfl
@[simp] theorem State.clearStore_scratch (s : State) : (s.clearStore).scratch = s.scratch := rfl
@[simp] theorem State.clearStore_fault (s : State) : (s.clearStore).fault = s.fault := rfl
@[simp] theorem State.clearStore_refused (s : State) : (s.clearStore).refused = s.refused := rfl
@[simp] theorem State.clearStore_history (s : State) : (s.clearStore).history = s.history := rfl
@[simp] theorem State.clearStore_waiting (s : State) : (s.clearStore).waiting = s.waiting := rfl
@[simp] theorem State.clearStore_host (s : State) : (s.clearStore).host = s.host := rfl
@[simp] theorem State.clearStore_allocAnswers (s : State) : (s.clearStore).allocAnswers = s.allocAnswers := rfl
@[simp] theorem State.clearStore_transportAnswers (s : State) : (s.clearStore).transportAnswers = s.transportAnswers := rfl

@[simp] theorem State.withHistory_phase (s : State) (h : List Event) : (s.withHistory h).phase = s.phase := rfl
@[simp] theorem State.withHistory_allocated (s : State) (h : List Event) : (s.withHistory h).allocated = s.allocated := rfl
@[simp] theorem State.withHistory_count (s : State) (h : List Event) : (s.withHistory h).count = s.count := rfl
@[simp] theorem State.withHistory_backing (s : State) (h : List Event) : (s.withHistory h).backing = s.backing := rfl
@[simp] theorem State.withHistory_cfgPin (s : State) (h : List Event) : (s.withHistory h).cfgPin = s.cfgPin := rfl
@[simp] theorem State.withHistory_cfgBus (s : State) (h : List Event) : (s.withHistory h).cfgBus = s.cfgBus := rfl
@[simp] theorem State.withHistory_cfgFreq (s : State) (h : List Event) : (s.withHistory h).cfgFreq = s.cfgFreq := rfl
@[simp] theorem State.withHistory_handle (s : State) (h : List Event) : (s.withHistory h).handle = s.handle := rfl
@[simp] theorem State.withHistory_pix (s : State) (h : List Event) : (s.withHistory h).pix = s.pix := rfl
@[simp] theorem State.withHistory_scratch (s : State) (h : List Event) : (s.withHistory h).scratch = s.scratch := rfl
@[simp] theorem State.withHistory_fault (s : State) (h : List Event) : (s.withHistory h).fault = s.fault := rfl
@[simp] theorem State.withHistory_refused (s : State) (h : List Event) : (s.withHistory h).refused = s.refused := rfl
@[simp] theorem State.withHistory_history (s : State) (h : List Event) : (s.withHistory h).history = h := rfl
@[simp] theorem State.withHistory_waiting (s : State) (h : List Event) : (s.withHistory h).waiting = s.waiting := rfl
@[simp] theorem State.withHistory_host (s : State) (h : List Event) : (s.withHistory h).host = s.host := rfl
@[simp] theorem State.withHistory_allocAnswers (s : State) (h : List Event) : (s.withHistory h).allocAnswers = s.allocAnswers := rfl
@[simp] theorem State.withHistory_transportAnswers (s : State) (h : List Event) : (s.withHistory h).transportAnswers = s.transportAnswers := rfl
@[simp] theorem State.withHistory_withHistory (s : State) (h k : List Event) :
    (s.withHistory h).withHistory k = s.withHistory k := rfl
@[simp] theorem State.withHistory_self (s : State) : s.withHistory s.history = s := rfl

@[simp] theorem State.restart_phase (s : State) : s.restart.phase = .unready := rfl
@[simp] theorem State.restart_count (s : State) : s.restart.count = s.count := rfl
@[simp] theorem State.restart_backing (s : State) : s.restart.backing = s.backing := rfl
@[simp] theorem State.restart_cfgPin (s : State) : s.restart.cfgPin = none := rfl
@[simp] theorem State.restart_cfgBus (s : State) : s.restart.cfgBus = none := rfl
@[simp] theorem State.restart_cfgFreq (s : State) : s.restart.cfgFreq = none := rfl
@[simp] theorem State.restart_handle (s : State) : s.restart.handle = .none := rfl
@[simp] theorem State.restart_scratch (s : State) : s.restart.scratch = [] := rfl
@[simp] theorem State.restart_fault (s : State) : s.restart.fault = none := rfl
@[simp] theorem State.restart_refused (s : State) : s.restart.refused = false := rfl
@[simp] theorem State.restart_history (s : State) : s.restart.history = [] := rfl
@[simp] theorem State.restart_waiting (s : State) : s.restart.waiting = none := rfl
@[simp] theorem State.restart_host (s : State) : s.restart.host = s.host := rfl
@[simp] theorem State.restart_allocAnswers (s : State) : s.restart.allocAnswers = s.allocAnswers := rfl
@[simp] theorem State.restart_transportAnswers (s : State) : s.restart.transportAnswers = s.transportAnswers := rfl
theorem State.restart_allocated (s : State) : s.restart.allocated = true ↔ s.backing = .borrowed := by
  unfold State.restart; cases s.backing <;> simp
theorem State.restart_pix_of_borrowed {s : State} (h : s.backing = .borrowed) : s.restart.pix = s.pix := by
  unfold State.restart; rw [h]
theorem State.restart_pix_of_owned {s : State} (h : s.backing = .owned) : s.restart.pix = [] := by
  unfold State.restart; rw [h]

end Sys2Proof.Machine
end

