-- ==== Sys2Proof/Laws/Ops.lean ====
section
/-! SUPPORT. What each shared operation can do, once: acceptance, the requests to the environment, the store, the
transmission. Proofs about commands cite these and unfold none of the operations. -/

namespace Sys2Proof.Machine

/-! Acceptance (spec 40_pixel_store.md R100). -/

theorem accept_waiting {s : State} {r : Request} (h : s.waiting = some r) (c : CommandClass)
    (b : Host.Outcome State Fault Refusal) : accept c s b = .fault (.stuck r) := by
  simp [accept, h]

theorem accept_halted {s : State} (h : s.idleIn .halted) (c : CommandClass) (b : Host.Outcome State Fault Refusal) :
    accept c s b = .fault (.halted s.fault) := by
  obtain ⟨hw, hp⟩ := h
  simp [accept, hw, hp]

theorem accept_initialisation_ready {s : State} (h : s.idleIn .ready) (b : Host.Outcome State Fault Refusal) :
    accept .initialisation s b = .refused .reinit := by
  obtain ⟨hw, hp⟩ := h
  simp [accept, hw, hp]

theorem accept_initialisation_unready {s : State} (h : s.idleIn .unready) (b : Host.Outcome State Fault Refusal) :
    accept .initialisation s b = b := by
  obtain ⟨hw, hp⟩ := h
  simp [accept, hw, hp]

theorem accept_store_unready {s : State} (h : s.idleIn .unready) (b : Host.Outcome State Fault Refusal) :
    accept .store s b = .next (s.halt .notReady) := by
  obtain ⟨hw, hp⟩ := h
  simp [accept, hw, hp]

theorem accept_store_ready {s : State} (h : s.idleIn .ready) (b : Host.Outcome State Fault Refusal) :
    accept .store s b = b := by
  obtain ⟨hw, hp⟩ := h
  simp [accept, hw, hp]

theorem accept_conversion {s : State} (hw : s.waiting = none) (hp : s.phase ≠ .halted)
    (b : Host.Outcome State Fault Refusal) : accept .conversion s b = b := by
  cases h : s.phase <;> simp_all [accept]

/-- All acceptance can do when it ends in a next state: the NOT_READY fault, or the command's own body. -/
theorem accept_next {c : CommandClass} {s t : State} {b : Host.Outcome State Fault Refusal}
    (h : accept c s b = .next t) :
    s.waiting = none ∧
      ((c = .store ∧ s.phase = .unready ∧ t = s.halt .notReady) ∨
        (b = .next t ∧
          ((c = .store ∧ s.phase = .ready) ∨ (c = .initialisation ∧ s.phase = .unready) ∨
            (c = .conversion ∧ s.phase ≠ .halted)))) := by
  cases hw : s.waiting <;> cases hp : s.phase <;> cases c <;> simp_all [accept]

/-! The requests to the environment (10_state.md R36, R37; 00_scope.md R11). -/

@[simp] theorem State.allocAnswer_eq (s : State) (k : Nat) : s.allocAnswer k = drawAt s.allocAnswers k := rfl
@[simp] theorem State.transportAnswer_eq (s : State) (k : Nat) : s.transportAnswer k = drawAt s.transportAnswers k := rfl

/-- A draw after one has been taken. -/
@[simp] theorem drawAt_tail {α : Type} (draws : List (Option α)) (k : Nat) : drawAt draws.tail k = drawAt draws (k + 1) := by
  cases draws <;> rfl

theorem State.askAllocator_cases (s : State) (onFail onOk : State → State) :
    (s.allocAnswer 0 = none ∧
        s.askAllocator onFail onOk = (s.dropAllocAnswer.emit (.alloc s.count none)).waitFor .alloc) ∨
      (s.allocAnswer 0 = some .fail ∧
        s.askAllocator onFail onOk = onFail (s.dropAllocAnswer.emit (.alloc s.count (some .fail)))) ∨
      (s.allocAnswer 0 = some .ok ∧
        s.askAllocator onFail onOk = onOk (s.dropAllocAnswer.emit (.alloc s.count (some .ok)))) := by
  unfold State.askAllocator
  cases h : s.allocAnswer 0 with
  | none => simp
  | some a => cases a <;> simp

theorem State.askTransport_cases (s : State) (q : Request) (r : FaultReason) (ev : Option TransportAnswer → Event)
    (k : State → State) :
    (s.transportAnswer 0 = none ∧ s.askTransport q r ev k = (s.dropTransportAnswer.emit (ev none)).waitFor q) ∨
      (s.transportAnswer 0 = some .error ∧
        s.askTransport q r ev k = (s.dropTransportAnswer.emit (ev (some .error))).halt r) ∨
      (s.transportAnswer 0 = some .ok ∧
        s.askTransport q r ev k = k (s.dropTransportAnswer.emit (ev (some .ok)))) := by
  unfold State.askTransport
  cases h : s.transportAnswer 0 with
  | none => simp
  | some a => cases a <;> simp

/-! The store. -/

theorem State.firstUnvalued_eq_none {s : State} : s.firstUnvalued = none ↔ s.allValued := by
  simp [State.firstUnvalued, State.allValued, List.find?_eq_none, Option.isSome_iff_ne_none]

@[simp] theorem State.pixels_length (s : State) : s.pixels.length = s.count := by simp [State.pixels]

theorem State.pixels_getElem? (s : State) (i : Nat) :
    s.pixels[i]? = if i < s.count then some (s.slotValue i) else none := by
  simp only [State.pixels, List.getElem?_map]
  split
  · rename_i h; simp [h]
  · rename_i h; simp [h]

/-- Two states with the same store have the same pixels. -/
theorem State.pixels_congr {s t : State} (hc : t.count = s.count) (hp : t.pix = s.pix) : t.pixels = s.pixels := by
  unfold State.pixels State.slotValue
  rw [hc, hp]

theorem State.read_clearStore (s : State) (i : Nat) :
    Memory.read s.clearStore.pix i = if i < s.count then some 0#32 else Memory.read s.pix i := by
  simp [Memory.read_fill]

theorem State.allValued_clearStore (s : State) : s.clearStore.allValued := by
  intro i hi
  rw [State.read_clearStore, if_pos (by simpa using hi)]
  rfl

/-- A store that CLEAR has just cleared is `N` zero slots. -/
theorem State.pixels_clearStore (s : State) : s.clearStore.pixels = List.replicate s.count 0#32 := by
  apply List.ext_getElem?
  intro i
  rw [State.pixels_getElem?, List.getElem?_replicate]
  split
  · rename_i h
    rw [State.clearStore_count] at h
    rw [if_pos h, State.slotValue, State.read_clearStore, if_pos h]
    rfl
  · rename_i h
    rw [if_neg (by simpa using h)]

/-- All that the shared slot write does (40_pixel_store.md R110, R111). -/
theorem State.writeSlot_eq (s : State) (opc : Byte) (index color : Slot) :
    s.writeSlot opc index color =
      if index.toNat < s.count then (s.setPix (Memory.write s.pix index.toNat color)).respond opc .ok 0#32
      else s.respond opc .errBounds 0#32 := by
  simp [State.writeSlot, State.inStore]

/-! The transmission (42_encoder.md R174). -/

/-- All that a transmission can do: wait for ever, fault TRANSPORT_TX, or go on with an empty scratch buffer. -/
theorem State.transmit_cases (s : State) (k : State → State) :
    let f := s.setScratch (Memory.writeFrom s.scratch 0 (enc s.pixels))
    let ev := fun a => Event.transmit s.handle (8 * (24 * s.count + 1)) (enc s.pixels) a
    (s.transportAnswer 0 = none ∧ s.transmit k = (f.dropTransportAnswer.emit (ev none)).waitFor .transmit) ∨
      (s.transportAnswer 0 = some .error ∧
        s.transmit k = (f.dropTransportAnswer.emit (ev (some .error))).halt .transportTx) ∨
      (s.transportAnswer 0 = some .ok ∧
        s.transmit k = k ((f.dropTransportAnswer.emit (ev (some .ok))).setScratch [])) := by
  intro f ev
  exact f.askTransport_cases .transmit .transportTx ev fun t => k (t.setScratch [])

end Sys2Proof.Machine
end

