-- ==== Sys2Proof/Laws/Encoder.lean ====
section
/-! SUPPORT. Small laws of the encoder and of the symbol-bytes (spec 42_encoder.md R170, R171). -/

namespace Sys2Proof.Machine

/-- The symbol-bytes differ, whatever the parameters are (00_scope.md R8). -/
theorem Config.sym1_ne_sym0 : Config.sym1 ≠ Config.sym0 := by
  unfold Config.sym1
  split
  · intro h
    have := congrArg (fun b : Byte => b.getLsbD 0) h
    simp at this
  · assumption

@[simp] theorem slotSymbols_length (a b : Byte) (p : Slot) : (slotSymbols a b p).length = 24 := by
  simp [slotSymbols]

theorem slotSymbols_getElem? (a b : Byte) (p : Slot) (j : Nat) :
    (slotSymbols a b p)[j]? = if j < 24 then some (symOf a b (p.getLsbD (23 - j))) else none := by
  simp only [slotSymbols, List.getElem?_map]
  split
  · rename_i h; simp [h]
  · rename_i h; simp [h]

@[simp] theorem encWith_length (a b : Byte) (ps : List Slot) : (encWith a b ps).length = 24 * ps.length + 1 := by
  induction ps with
  | nil => rfl
  | cons p ps ih => simp_all [encWith]; omega

@[simp] theorem enc_length (ps : List Slot) : (enc ps).length = 24 * ps.length + 1 := encWith_length _ _ _

@[simp] theorem enc_head? (ps : List Slot) : (enc ps).head? = some Config.marker := rfl

theorem mem_tail_enc {ps : List Slot} {x : Byte} (h : x ∈ (enc ps).tail) : x = Config.sym1 ∨ x = Config.sym0 := by
  simp only [enc, encWith, List.tail_cons, List.mem_flatMap, slotSymbols, List.mem_map, symOf] at h
  obtain ⟨p, -, j, -, rfl⟩ := h
  split <;> simp

end Sys2Proof.Machine
end

