-- ==== Sys2Proof/Laws/Init.lean ====
section
/-! SUPPORT. All that INIT can do after its acceptance (spec 40_pixel_store.md R101 to R104), said once. -/

namespace Sys2Proof.Machine

@[simp] theorem State.backed_allocated (s : State) : s.backed.allocated = true := by
  unfold State.backed; split <;> simp_all
@[simp] theorem State.backed_count (s : State) : s.backed.count = s.count := by unfold State.backed; split <;> rfl
@[simp] theorem State.backed_backing (s : State) : s.backed.backing = s.backing := by unfold State.backed; split <;> rfl
@[simp] theorem State.backed_phase (s : State) : s.backed.phase = s.phase := by unfold State.backed; split <;> rfl
@[simp] theorem State.backed_cfgPin (s : State) : s.backed.cfgPin = s.cfgPin := by unfold State.backed; split <;> rfl
@[simp] theorem State.backed_cfgBus (s : State) : s.backed.cfgBus = s.cfgBus := by unfold State.backed; split <;> rfl
@[simp] theorem State.backed_cfgFreq (s : State) : s.backed.cfgFreq = s.cfgFreq := by unfold State.backed; split <;> rfl
@[simp] theorem State.backed_handle (s : State) : s.backed.handle = s.handle := by unfold State.backed; split <;> rfl
@[simp] theorem State.backed_scratch (s : State) : s.backed.scratch = s.scratch := by unfold State.backed; split <;> rfl
@[simp] theorem State.backed_fault (s : State) : s.backed.fault = s.fault := by unfold State.backed; split <;> rfl
@[simp] theorem State.backed_refused (s : State) : s.backed.refused = s.refused := by unfold State.backed; split <;> rfl
@[simp] theorem State.backed_waiting (s : State) : s.backed.waiting = s.waiting := by unfold State.backed; split <;> rfl
@[simp] theorem State.backed_host (s : State) : s.backed.host = s.host := by unfold State.backed; split <;> rfl
@[simp] theorem State.backed_transportAnswers (s : State) : s.backed.transportAnswers = s.transportAnswers := by
  unfold State.backed; split <;> rfl
theorem State.backed_pix (s : State) : s.backed.pix = if s.allocated then s.pix else [] := by
  unfold State.backed; split <;> rfl
theorem State.backed_allocAnswers (s : State) :
    s.backed.allocAnswers = if s.allocated then s.allocAnswers else s.allocAnswers.tail := by
  unfold State.backed; split <;> rfl
theorem State.backed_history (s : State) :
    s.backed.history = s.history ++ if s.allocated then [] else [.alloc s.count (some .ok)] := by
  unfold State.backed; split <;> simp

/-- INIT of a store that is, or now gets, backed goes on from there (R101, R102). -/
theorem State.initialise_of_canBack {s : State} (h : s.canBack) (pin bus freq : Slot) :
    s.initialise pin bus freq = s.backed.configure pin bus freq := by
  unfold State.initialise State.ensureStore State.backed
  split
  · rfl
  · rename_i ha
    have hok : s.allocAnswer 0 = some .ok := h.resolve_left ha
    rcases s.askAllocator_cases (fun t => t.respond 0x01#8 .errAlloc 0#32)
      (fun t => t.backStore.configure pin bus freq) with ⟨h1, _⟩ | ⟨h1, _⟩ | ⟨_, h2⟩
    · simp [h1] at hok
    · simp [h1] at hok
    · exact h2

/-- INIT after bus-initialise is answered OK (R103). -/
def State.busReady (s : State) (pin bus freq : Slot) : State :=
  (s.backed.setConfig pin bus freq).dropTransportAnswer.emit
    (.busInit pin bus Config.maxTransferBytes true (some .ok))

/-- INIT after device-attach is answered OK and the store is cleared, about to transmit (R103, R104). -/
def State.readyToTransmit (s : State) (pin bus freq : Slot) : State :=
  ((s.busReady pin bus freq).dropTransportAnswer.emit (.deviceAttach bus freq true (some .ok))).attach.clearStore

/-- INIT with its all-off frame in the scratch buffer (R104, 42_encoder.md R172). -/
def State.framed (s : State) (pin bus freq : Slot) : State :=
  (s.readyToTransmit pin bus freq).setScratch (Memory.writeFrom s.scratch 0 (enc (List.replicate s.count 0#32)))

/-- The event of INIT's transmission. -/
def State.allOffEvent (s : State) (answer : Option TransportAnswer) : Event :=
  .transmit .session (8 * (24 * s.count + 1)) (enc (List.replicate s.count 0#32)) answer

/-- What is shown of each of the nine ways INIT can end holds of INIT. -/
theorem State.initialise_cases (s : State) (pin bus freq : Slot) (Q : State → Prop)
    (noAlloc : s.allocated = false → s.allocAnswer 0 = none →
      Q ((s.dropAllocAnswer.emit (.alloc s.count none)).waitFor .alloc))
    (allocFails : s.allocated = false → s.allocAnswer 0 = some .fail →
      Q ((s.dropAllocAnswer.emit (.alloc s.count (some .fail))).respond 0x01#8 .errAlloc 0#32))
    (noBus : s.canBack → s.transportAnswer 0 = none →
      Q (((s.backed.setConfig pin bus freq).dropTransportAnswer.emit
        (.busInit pin bus Config.maxTransferBytes true none)).waitFor .busInit))
    (busFails : s.canBack → s.transportAnswer 0 = some .error →
      Q (((s.backed.setConfig pin bus freq).dropTransportAnswer.emit
        (.busInit pin bus Config.maxTransferBytes true (some .error))).halt .transportBusInit))
    (noAttach : s.canBack → s.transportAnswer 0 = some .ok → s.transportAnswer 1 = none →
      Q (((s.busReady pin bus freq).dropTransportAnswer.emit (.deviceAttach bus freq true none)).waitFor .deviceAttach))
    (attachFails : s.canBack → s.transportAnswer 0 = some .ok → s.transportAnswer 1 = some .error →
      Q (((s.busReady pin bus freq).dropTransportAnswer.emit (.deviceAttach bus freq true (some .error))).halt
        .transportAttach))
    (noTransmit : s.canBack → s.transportAnswer 0 = some .ok → s.transportAnswer 1 = some .ok →
      s.transportAnswer 2 = none →
      Q (((s.framed pin bus freq).dropTransportAnswer.emit (s.allOffEvent none)).waitFor .transmit))
    (transmitFails : s.canBack → s.transportAnswer 0 = some .ok → s.transportAnswer 1 = some .ok →
      s.transportAnswer 2 = some .error →
      Q (((s.framed pin bus freq).dropTransportAnswer.emit (s.allOffEvent (some .error))).halt .transportTx))
    (done : s.canBack → s.transportAnswer 0 = some .ok → s.transportAnswer 1 = some .ok →
      s.transportAnswer 2 = some .ok →
      Q ((((s.framed pin bus freq).dropTransportAnswer.emit (s.allOffEvent (some .ok))).setScratch []).enterReady.respond
        0x01#8 .ok 0#32)) :
    Q (s.initialise pin bus freq) := by
  by_cases hb : s.canBack
  · rw [State.initialise_of_canBack hb]
    unfold State.configure
    rcases (s.backed.setConfig pin bus freq).askTransport_cases .busInit .transportBusInit
      (fun a => .busInit pin bus Config.maxTransferBytes true a) (fun t =>
        t.askTransport .deviceAttach .transportAttach (fun a => .deviceAttach bus freq true a) fun u => u.attach.bringUp)
      with ⟨h1, h2⟩ | ⟨h1, h2⟩ | ⟨h1, h2⟩
    · rw [h2]; exact noBus hb (by simpa using h1)
    · rw [h2]; exact busFails hb (by simpa using h1)
    · rw [h2]
      have h0 : s.transportAnswer 0 = some .ok := by simpa using h1
      rcases (s.busReady pin bus freq).askTransport_cases .deviceAttach .transportAttach
        (fun a => .deviceAttach bus freq true a) (fun u => u.attach.bringUp) with ⟨h3, h4⟩ | ⟨h3, h4⟩ | ⟨h3, h4⟩
      · exact h4 ▸ noAttach hb h0 (by simpa [State.busReady] using h3)
      · exact h4 ▸ attachFails hb h0 (by simpa [State.busReady] using h3)
      · refine h4 ▸ ?_
        have h1 : s.transportAnswer 1 = some .ok := by simpa [State.busReady] using h3
        have hp : (s.readyToTransmit pin bus freq).pixels = List.replicate s.count 0#32 := by
          have := State.pixels_clearStore
            ((s.busReady pin bus freq).dropTransportAnswer.emit (.deviceAttach bus freq true (some .ok))).attach
          simpa [State.busReady, State.readyToTransmit] using this
        have ht := (s.readyToTransmit pin bus freq).transmit_cases (fun t => t.enterReady.respond 0x01#8 .ok 0#32)
        have hs : (s.readyToTransmit pin bus freq).scratch = s.scratch := by
          simp [State.readyToTransmit, State.busReady]
        have hc : (s.readyToTransmit pin bus freq).count = s.count := by simp [State.readyToTransmit, State.busReady]
        have hh : (s.readyToTransmit pin bus freq).handle = .session := rfl
        have hans : (s.readyToTransmit pin bus freq).transportAnswer 0 = s.transportAnswer 2 := by
          simp [State.readyToTransmit, State.busReady]
        simp only [hp, hs, hc, hh, hans] at ht
        rcases ht with ⟨h5, h6⟩ | ⟨h5, h6⟩ | ⟨h5, h6⟩
        · exact (congrArg Q h6).mpr (noTransmit hb h0 h1 h5)
        · exact (congrArg Q h6).mpr (transmitFails hb h0 h1 h5)
        · exact (congrArg Q h6).mpr (done hb h0 h1 h5)
  · have ha : s.allocated = false := by
      cases h : s.allocated
      · rfl
      · exact absurd (Or.inl h) hb
    unfold State.initialise State.ensureStore
    rw [if_neg (by simp [ha])]
    rcases s.askAllocator_cases (fun t => t.respond 0x01#8 .errAlloc 0#32)
      (fun t => t.backStore.configure pin bus freq) with ⟨h1, h2⟩ | ⟨h1, h2⟩ | ⟨h1, _⟩
    · rw [h2]; exact noAlloc ha h1
    · rw [h2]; exact allocFails ha h1
    · exact absurd (Or.inr h1) hb

end Sys2Proof.Machine
end

