-- ==== Sys2Proof/Laws/Exec.lean ====
section
/-! SUPPORT. All that a command can do when it ends in a next state, said once: for SHOW, and for every command but INIT
(INIT's own list is `State.initialise_cases`); and how the projections of the history go through an append. -/

namespace Sys2Proof.Machine

theorem responses_append (a b : List Event) : responses (a ++ b) = responses a ++ responses b := by
  simp [responses, List.filterMap_append]

theorem transmissions_append (a b : List Event) : transmissions (a ++ b) = transmissions a ++ transmissions b := by
  simp [transmissions, List.filterMap_append]

/-- SHOW with its frame in the scratch buffer (spec 42_encoder.md R172, R174). -/
def State.showFramed (s : State) : State := s.setScratch (Memory.writeFrom s.scratch 0 (enc s.pixels))

/-- The event of SHOW's transmission. -/
def State.showEvent (s : State) (answer : Option TransportAnswer) : Event :=
  .transmit s.handle (8 * (24 * s.count + 1)) (enc s.pixels) answer

/-- What is shown of each of the three ways SHOW can end holds of SHOW (R173, R174, R176). -/
theorem State.show_cases (s : State) (Q : State → Prop)
    (noAnswer : s.transportAnswer 0 = none →
      Q ((s.showFramed.dropTransportAnswer.emit (s.showEvent none)).waitFor .transmit))
    (fails : s.transportAnswer 0 = some .error →
      Q ((s.showFramed.dropTransportAnswer.emit (s.showEvent (some .error))).halt .transportTx))
    (done : s.transportAnswer 0 = some .ok →
      Q (((s.showFramed.dropTransportAnswer.emit (s.showEvent (some .ok))).setScratch []).respond 0x07#8 .ok 0#32)) :
    Q (s.transmit fun t => t.respond 0x07#8 .ok 0#32) := by
  rcases s.transmit_cases (fun t => t.respond 0x07#8 .ok 0#32) with ⟨h1, h2⟩ | ⟨h1, h2⟩ | ⟨h1, h2⟩
  · rw [h2]; exact noAnswer h1
  · rw [h2]; exact fails h1
  · rw [h2]; exact done h1

/-- What is shown of each of the ways a command other than INIT can end in a next state holds of that state. -/
theorem exec_next_cases {i : Instr} {s t : State} (hi : isInit i = false) (h : exec i s = .next t) (Q : State → Prop)
    (notReady : s.idleIn .unready → needsReady i = true → Q (s.halt .notReady))
    (writes : s.idleIn .ready → ∀ index color : Slot,
      (i = .setpx index color ∨ (∃ r g b, i = .setrgb index r g b ∧ color = pack r g b) ∨
        (∃ hue sat val, i = .sethsv index hue sat val ∧ color = hsvToPacked hue sat val)) →
      index.toNat < s.count →
      Q ((s.setPix (Memory.write s.pix index.toNat color)).respond (opcode i) .ok 0#32))
    (errBounds : s.idleIn .ready → opcode i = 0x02#8 ∨ opcode i = 0x03#8 ∨ opcode i = 0x04#8 →
      Q (s.respond (opcode i) .errBounds 0#32))
    (fills : s.idleIn .ready → ∀ first cnt color stop, i = .fill first cnt color →
      fillEnd s.count first cnt = some stop →
      Q ((s.setPix (Memory.fill s.pix first.toNat (stop - first.toNat) color)).respond 0x05#8 .ok 0#32))
    (clears : s.idleIn .ready → i = .clear → Q (s.clearStore.respond 0x06#8 .ok 0#32))
    (shows : s.idleIn .ready → i = .showFrame → s.allValued → Q (s.transmit fun t => t.respond 0x07#8 .ok 0#32))
    (reads : s.idleIn .ready → ∀ index v, i = .getpx index → index.toNat < s.count →
      Memory.read s.pix index.toNat = some v → Q (s.respond 0x08#8 .ok v))
    (readOor : s.idleIn .ready → ∀ index, i = .getpx index → s.count ≤ index.toNat → Q (s.halt .readOor))
    (packs : s.waiting = none → s.phase ≠ .halted → ∀ r g b, i = .rgb2pk r g b →
      Q (s.respond 0x09#8 .ok (pack r g b)))
    (converts : s.waiting = none → s.phase ≠ .halted → ∀ hue sat val, i = .hsv2pk hue sat val →
      Q (s.respond 0x0A#8 .ok (hsvToPacked hue sat val))) :
    Q t := by
  have store : ∀ b : Host.Outcome State Fault Refusal, needsReady i = true → accept .store s b = .next t →
      (s.idleIn .ready → b = .next t → Q t) → Q t := by
    intro b hn hacc hb
    obtain ⟨hw, h | ⟨h1, h2⟩⟩ := accept_next hacc
    · rw [h.2.2]; exact notReady ⟨hw, h.2.1⟩ hn
    · rcases h2 with h2 | h2 | h2
      · exact hb ⟨hw, h2.2⟩ h1
      · simp at h2
      · simp at h2
  have slot : ∀ index color : Slot,
      (i = .setpx index color ∨ (∃ r g b, i = .setrgb index r g b ∧ color = pack r g b) ∨
        (∃ hue sat val, i = .sethsv index hue sat val ∧ color = hsvToPacked hue sat val)) →
      opcode i = 0x02#8 ∨ opcode i = 0x03#8 ∨ opcode i = 0x04#8 → s.idleIn .ready →
      Host.Outcome.next (φ := Fault) (ρ := Refusal) (s.writeSlot (opcode i) index color) = .next t → Q t := by
    intro index color hc ho hr hb
    rw [State.writeSlot_eq] at hb
    by_cases hx : index.toNat < s.count
    · rw [if_pos hx] at hb; cases hb; exact writes hr _ _ hc hx
    · rw [if_neg hx] at hb; cases hb; exact errBounds hr ho
  cases i
  case init => simp [isInit] at hi
  case setpx index color =>
    exact store _ rfl h fun hr hb => slot index color (.inl rfl) (.inl rfl) hr hb
  case setrgb index r g b =>
    exact store _ rfl h fun hr hb => slot index _ (.inr (.inl ⟨r, g, b, rfl, rfl⟩)) (.inr (.inl rfl)) hr hb
  case sethsv index hue sat val =>
    exact store _ rfl h fun hr hb => slot index _ (.inr (.inr ⟨hue, sat, val, rfl, rfl⟩)) (.inr (.inr rfl)) hr hb
  case fill first cnt color =>
    refine store _ rfl h fun hr hb => ?_
    cases hf : fillEnd s.count first cnt with
    | none => simp [hf] at hb
    | some stop => rw [hf] at hb; cases hb; exact fills hr _ _ _ _ rfl hf
  case clear =>
    refine store _ rfl h fun hr hb => ?_
    cases hb; exact clears hr rfl
  case showFrame =>
    refine store _ rfl h fun hr hb => ?_
    cases hf : s.firstUnvalued with
    | some i => simp [hf] at hb
    | none => rw [hf] at hb; cases hb; exact shows hr rfl (State.firstUnvalued_eq_none.1 hf)
  case getpx index =>
    refine store _ rfl h fun hr hb => ?_
    by_cases hx : index.toNat < s.count
    · rw [if_pos (by simpa [State.inStore] using hx)] at hb
      cases hv : Memory.read s.pix index.toNat with
      | none => simp [hv] at hb
      | some v => rw [hv] at hb; cases hb; exact reads hr _ _ rfl hx hv
    · rw [if_neg (by simpa [State.inStore] using hx)] at hb; cases hb; exact readOor hr _ rfl (by omega)
  case rgb2pk r g b =>
    obtain ⟨hw, h | ⟨h1, h2⟩⟩ := accept_next h
    · simp at h
    · cases h1; exact packs hw (by simpa using h2) _ _ _ rfl
  case hsv2pk hue sat val =>
    obtain ⟨hw, h | ⟨h1, h2⟩⟩ := accept_next h
    · simp at h
    · cases h1; exact converts hw (by simpa using h2) _ _ _ rfl

/-- INIT that ends in a next state was accepted in phase Unready (40_pixel_store.md R100, R105). -/
theorem exec_init_next {pin bus freq : Slot} {s t : State} (h : exec (.init pin bus freq) s = .next t) :
    s.idleIn .unready ∧ t = s.initialise pin bus freq := by
  obtain ⟨hw, h | ⟨h1, h2⟩⟩ := accept_next h
  · simp at h
  · cases h1
    exact ⟨⟨hw, by simpa using h2⟩, rfl⟩

end Sys2Proof.Machine
end

