-- ==== Sys2Proof/Laws/PerInstr.lean ====
section
/-! SUPPORT. Statements made per instruction. EncodeFields: the encoding of every command carries its opcode and a zero
RSVD field (spec 30_encoding.md R70, R73, R75). -/

namespace Sys2Proof.Laws.EncodeFields

def Statement (i : Instr) : Prop := opcOf (encode i) = opcode i ∧ rsvdOf (encode i) = 0#24

theorem opcOf_commandWord (o : Byte) (a b c : Slot) : opcOf (commandWord o a b c) = o := by
  simp only [opcOf, commandWord]
  ext i hi
  simp only [BitVec.getElem_extractLsb', BitVec.getLsbD_append]
  have h1 : ¬ 120 + i < 24 + (32 + (32 + 32)) := by omega
  simp [h1, hi]

theorem rsvdOf_commandWord (o : Byte) (a b c : Slot) : rsvdOf (commandWord o a b c) = 0#24 := by
  simp only [rsvdOf, commandWord]
  ext i hi
  simp only [BitVec.getElem_extractLsb', BitVec.getLsbD_append]
  have h1 : 96 + i < 24 + (32 + (32 + 32)) := by omega
  have h2 : ¬ 96 + i < 32 + (32 + 32) := by omega
  simp [h1, h2]

theorem init (pin bus freq : Slot) : Statement (.init pin bus freq) :=
  ⟨opcOf_commandWord _ _ _ _, rsvdOf_commandWord _ _ _ _⟩

theorem setpx (index color : Slot) : Statement (.setpx index color) :=
  ⟨opcOf_commandWord _ _ _ _, rsvdOf_commandWord _ _ _ _⟩

theorem setrgb (index : Slot) (r g b : Byte) : Statement (.setrgb index r g b) :=
  ⟨opcOf_commandWord _ _ _ _, rsvdOf_commandWord _ _ _ _⟩

theorem sethsv (index : Slot) (hue sat val : Byte) : Statement (.sethsv index hue sat val) :=
  ⟨opcOf_commandWord _ _ _ _, rsvdOf_commandWord _ _ _ _⟩

theorem fill (first cnt color : Slot) : Statement (.fill first cnt color) :=
  ⟨opcOf_commandWord _ _ _ _, rsvdOf_commandWord _ _ _ _⟩

theorem clear : Statement .clear := ⟨opcOf_commandWord _ _ _ _, rsvdOf_commandWord _ _ _ _⟩

theorem showFrame : Statement .showFrame := ⟨opcOf_commandWord _ _ _ _, rsvdOf_commandWord _ _ _ _⟩

theorem getpx (index : Slot) : Statement (.getpx index) := ⟨opcOf_commandWord _ _ _ _, rsvdOf_commandWord _ _ _ _⟩

theorem rgb2pk (r g b : Byte) : Statement (.rgb2pk r g b) := ⟨opcOf_commandWord _ _ _ _, rsvdOf_commandWord _ _ _ _⟩

theorem hsv2pk (hue sat val : Byte) : Statement (.hsv2pk hue sat val) :=
  ⟨opcOf_commandWord _ _ _ _, rsvdOf_commandWord _ _ _ _⟩

end Sys2Proof.Laws.EncodeFields
end

