-- ==== Sys2Proof/Laws/Step.lean ====
section
/-! SUPPORT. All that one step can do when it ends in a next state, said once, and what a direct host move of a borrowed
store does. -/

namespace Sys2Proof.Machine

/-- A direct host move on a borrowed store of an idle block that is not halted is not stopped (spec 10_state.md R38). -/
theorem hostAccess_borrowed {s : State} (hw : s.waiting = none) (hp : s.phase ≠ .halted) (hb : s.backing = .borrowed)
    (b : Host.Outcome State Fault Refusal) : hostAccess s b = b := by
  cases h : s.phase <;> simp_all [hostAccess]

/-- All a direct host move asks for when it ends in a next state (R38). -/
theorem hostAccess_next {s t : State} {b : Host.Outcome State Fault Refusal} (h : hostAccess s b = .next t) :
    s.waiting = none ∧ s.phase ≠ .halted ∧ s.backing = .borrowed ∧ b = .next t := by
  cases hw : s.waiting <;> cases hp : s.phase <;> cases hb : s.backing <;> simp_all [hostAccess]

/-- All a step can do: a reset; or, while no request is unanswered, nothing, the command the host issues, or a direct
host write of a borrowed store, inside it or beyond it (R35, R38, 70_reset_and_hazards.md R230). -/
theorem step_next_cases {s t : State} (h : step s = .next t) :
    (∃ rest, s.host = .reset :: rest ∧ t = s.dropHostMove.restart) ∨
      (s.waiting = none ∧
        ((s.host = [] ∧ t = s) ∨
          (∃ w rest i, s.host = .issue w :: rest ∧ decode w = .ok i ∧ exec i s.dropHostMove = .next t) ∨
          (s.phase ≠ .halted ∧ s.backing = .borrowed ∧ (∀ rest, s.host ≠ .reset :: rest) ∧
            ((∃ index v, index < s.count ∧ t = s.dropHostMove.setPix (Memory.write s.pix index v)) ∨
              t = s.dropHostMove)))) := by
  unfold step at h
  cases hh : s.host with
  | nil =>
    simp only [hh] at h
    cases hw : s.waiting with
    | some q => simp [whenAnswered, hw] at h
    | none =>
      simp only [whenAnswered, hw] at h
      cases h
      exact .inr ⟨rfl, .inl ⟨rfl, rfl⟩⟩
  | cons m rest =>
    simp only [hh] at h
    cases m with
    | reset => cases h; exact .inl ⟨rest, rfl, rfl⟩
    | issue w =>
      cases hw : s.waiting with
      | some q => simp [whenAnswered, hw] at h
      | none =>
        simp only [whenAnswered, hw, runWord] at h
        cases hd : decode w with
        | error e => cases e; simp [hd] at h
        | ok i => simp only [hd] at h; exact .inr ⟨rfl, .inr (.inl ⟨w, rest, i, rfl, hd, h⟩)⟩
    | writeSlot index v =>
      obtain ⟨hw, hp, hb, h⟩ := hostAccess_next h
      refine .inr ⟨hw, .inr (.inr ⟨hp, hb, by simp, ?_⟩)⟩
      by_cases hx : index < s.count
      · rw [if_pos (by exact hx)] at h; cases h; exact .inl ⟨index, v, hx, rfl⟩
      · rw [if_neg (by exact hx)] at h; cases h; exact .inr rfl
    | writeByte address v =>
      obtain ⟨hw, hp, hb, h⟩ := hostAccess_next h
      refine .inr ⟨hw, .inr (.inr ⟨hp, hb, by simp, ?_⟩)⟩
      by_cases hx : address / 4 < s.count
      · rw [if_pos (by exact hx)] at h
        cases hr : Memory.read s.pix (address / 4) with
        | none => simp [hr] at h
        | some x => simp only [State.dropHostMove_pix, hr] at h; cases h; exact .inl ⟨_, _, hx, rfl⟩
      · rw [if_neg (by exact hx)] at h; cases h; exact .inr rfl

end Sys2Proof.Machine
end

