-- ==== Sys2Proof/Tests/Slice0.lean ====
section
/-! SUPPORT. The model's own tests. Expected results come from spec 95_test_vectors.md, by section; each theorem named
`witness_<Name>` shows values that meet the hypotheses of the obligation of that name, clause by clause. -/

namespace Sys2Proof.Tests

open Sys2Proof Sys2Proof.Machine

/-! ## Small states -/

/-- A backed block in phase Ready, idle, with given slots (the shape of 95_test_vectors.md sections 2.4 to 2.6). -/
def readyWith (slots : List Slot) : State :=
  { phase := .ready, allocated := true, count := slots.length, backing := .owned
    cfgPin := some 5, cfgBus := some 1, cfgFreq := some 8000000, handle := .session
    pix := (List.range slots.length).zip slots
    scratch := [], fault := none, refused := false, history := [], waiting := none
    host := [], allocAnswers := [], transportAnswers := [] }

/-- The store of section 2.6. -/
def ready3 : State := readyWith [0x0000FF00, 0x00FF0000, 0xAB0000FF]

/-- The store of section 2.5. -/
def ready5 : State := readyWith [1, 2, 3, 4, 5]

/-- An owned block of two slots before INIT (section 2.8), with the answers to come. -/
def unready2 (alloc : List AllocAnswer) (transport : List TransportAnswer) : State :=
  { readyWith [] with
    phase := .unready, allocated := false, count := 2, cfgPin := none, cfgBus := none, cfgFreq := none
    handle := .none, allocAnswers := alloc.map some, transportAnswers := transport.map some }

/-- A borrowed block of two slots before INIT, the host buffer holding 7 and 8 (section 2.8). -/
def borrowed2 (transport : List TransportAnswer) : State :=
  { unready2 [] transport with allocated := true, backing := .borrowed, pix := [(0, 7), (1, 8)] }

/-- A state with the transport's answers to come. -/
def answering (s : State) (transport : List TransportAnswer) : State :=
  { s with transportAnswers := transport.map some }

/-- A state whose host makes the given moves next. -/
def moving (s : State) (moves : List HostMove) : State := { s with host := moves }

/-- A view of the next state. -/
def after {α : Type} (f : State → α) : Host.Outcome State Fault Refusal → Option α
  | .next t => some (f t)
  | .fault _ => none
  | .refused _ => none

/-- The slots and the responses a command leaves. -/
def storeView (t : State) : List (Option Slot) × List (Byte × Status × Slot) :=
  ((List.range t.count).map (Memory.read t.pix), responses t.history)

/-! ## WellFormed: a configuration that is well formed, and one ill formed in each check (R8) -/

def params : Params :=
  { count := 3, backing := .borrowed, hostSlots := 3, sym1 := 0xF8, sym0 := 0xC0, maxCount := 3
    maxTransferBytes := 73, wireMsbFirst := true, hostEndian := .little }

theorem test_wf_accepts : params.wf = true := by decide

theorem test_wf_refuses_no_pixels : { params with count := 0 }.wf = false := by decide

theorem test_wf_refuses_too_many_pixels : { params with maxCount := 2 }.wf = false := by decide

theorem test_wf_refuses_short_transfer : { params with maxTransferBytes := 72 }.wf = false := by decide

theorem test_wf_refuses_equal_symbols : { params with sym0 := 0xF8 }.wf = false := by decide

theorem test_wf_refuses_small_buffer : { params with hostSlots := 2 }.wf = false := by decide

/-- An ill-formed configuration has no initial state (R8). -/
theorem test_construct_refuses : State.construct { params with count := 0 } (fun _ => 0) [] [] = none := by decide

/-! ## Decoding: the words of section 2.1 -/

theorem test_decode_init : decode 0x01000000_00000005_00000001_007A1200#128 = .ok (.init 5 1 8000000) := by decide

theorem test_decode_setpx : decode 0x02000000_00000001_00000000_FF00FF00#128 = .ok (.setpx 1 0xFF00FF00) := by decide

theorem test_decode_setrgb : decode 0x03000000_00000000_00000000_00FF0000#128 = .ok (.setrgb 0 255 0 0) := by decide

theorem test_decode_sethsv : decode 0x04000000_00000002_00000000_0000004D#128 = .ok (.sethsv 2 0 0 77) := by decide

theorem test_decode_fill :
    decode 0x05000000_FFFFFFFF_FFFFFFFF_00000000#128 = .ok (.fill 0xFFFFFFFF 0xFFFFFFFF 0) := by decide

theorem test_decode_clear : decode 0x06000000_00000000_00000000_00000000#128 = .ok .clear := by decide

theorem test_decode_show : decode 0x07000000_00000000_00000000_00000000#128 = .ok .showFrame := by decide

theorem test_decode_getpx : decode 0x08000000_00000002_00000000_00000000#128 = .ok (.getpx 2) := by decide

theorem test_decode_rgb2pk : decode 0x09000000_00000000_00000000_00123456#128 = .ok (.rgb2pk 18 52 86) := by decide

theorem test_decode_hsv2pk : decode 0x0A000000_00000000_00000000_0064004D#128 = .ok (.hsv2pk 100 0 77) := by decide

/-- The words section 2.1 lists as refused for their opcode or their RSVD. -/
theorem test_decode_refuses_opcodes :
    decode 0x00000000_00000000_00000000_00000000#128 = .error .illegalEncoding ∧
      decode 0x0B000000_00000000_00000000_00000000#128 = .error .illegalEncoding ∧
      decode 0xFF000000_00000000_00000000_00000000#128 = .error .illegalEncoding ∧
      decode 0x07000001_00000000_00000000_00000000#128 = .error .illegalEncoding := by decide

/-- The words section 2.1 lists as refused for a nonzero unused operand bit. -/
theorem test_decode_refuses_operands :
    decode 0x06000000_00000001_00000000_00000000#128 = .error .illegalEncoding ∧
      decode 0x02000000_00000001_00000001_0000FF00#128 = .error .illegalEncoding ∧
      decode 0x03000000_00000000_00000000_01FF0000#128 = .error .illegalEncoding ∧
      decode 0x09000000_00000001_00000000_00FF0000#128 = .error .illegalEncoding := by decide

/-- Program P2's word of `SETRGB 5, 1, 2, 3`. -/
theorem test_encode_setrgb : encode (.setrgb 5 1 2 3) = 0x03000000_00000005_00000000_00010203#128 := by decide

/-- Program P2's word of `INIT 7, 2, 4000000`. -/
theorem test_encode_init : encode (.init 7 2 4000000) = 0x01000000_00000007_00000002_003D0900#128 := by decide

/-! ## The assembler -/

/-- W12: the default frequency. -/
theorem test_assemble_init_default :
    assembleWord (.initDefault 5 1) = some 0x01000000_00000005_00000001_007A1200#128 := by decide

/-- P2: FILL takes its color first, as the source does, and carries it in slot C. -/
theorem test_assemble_fill :
    assembleWord (.fill 0x0000FF 1 2) = some 0x05000000_00000001_00000002_000000FF#128 := by decide

/-- R90: an operand that does not fit is rejected. -/
theorem test_assemble_rejects :
    assembleWord (.setrgb 0 256 0 0) = none ∧ assembleWord (.setpx 0x100000000 0) = none := by decide

/-- Lines of programs P1 and P2 as text. -/
theorem test_assemble_text :
    assembleText "SETRGB 2, 0, 0, 255      ; pure blue".toList = some [0x03000000_00000002_00000000_000000FF#128] ∧
      assembleText "  FILL 0x0000FF,1 ,	2".toList = some [0x05000000_00000001_00000002_000000FF#128] ∧
      assembleText "; nothing here".toList = some [] := by decide

/-- R90: a line that is no form is rejected. -/
theorem test_assemble_text_rejects :
    assembleText "SETRGB 2, 0, 0".toList = none ∧ assembleText "GETPX 0x".toList = none ∧
      assembleText "CLEAR 1".toList = none ∧ assembleText "GETPX 1 2".toList = none := by decide

/-! ## One step, by command -/

/-- Section 2.8, row 1. -/
theorem test_init_all_ok :
    after (fun t => (t.phase, t.handle, t.cfgFreq)) (exec (.init 5 1 8000000) (unready2 [.ok] [.ok, .ok, .ok])) =
      some (.ready, .session, some 8000000) ∧
    after storeView (exec (.init 5 1 8000000) (unready2 [.ok] [.ok, .ok, .ok])) =
      some ([some 0, some 0], [(0x01, .ok, 0)]) := by decide

/-- Section 2.8, row 4: attach ERROR. -/
theorem test_init_attach_error :
    after (fun t => (t.phase, t.fault, t.allocated, t.handle, t.cfgFreq))
      (exec (.init 5 1 8000000) (unready2 [.ok] [.ok, .error])) =
    some (.halted, some .transportAttach, true, .none, some 8000000) := by decide

/-- Section 2.4: the upper bits are kept. -/
theorem test_setpx_keeps_upper_bits :
    after storeView (exec (.setpx 2 0xAB0000FF) (readyWith [0, 0, 0])) =
    some ([some 0, some 0, some 0xAB0000FF], [(0x02, .ok, 0)]) := by decide

/-- Section 2.4: the first index beyond the store. -/
theorem test_setpx_bounds :
    after storeView (exec (.setpx 3 1) (readyWith [0, 0, 0])) =
    some ([some 0, some 0, some 0], [(0x02, .errBounds, 0)]) := by decide

/-- Section 2.4. -/
theorem test_setrgb_green :
    after storeView (exec (.setrgb 1 0 255 0) (readyWith [0, 0, 0])) =
    some ([some 0, some 0x00FF0000, some 0], [(0x03, .ok, 0)]) := by decide

/-- Section 2.4. -/
theorem test_setrgb_bounds :
    after storeView (exec (.setrgb 3 1 2 3) (readyWith [0, 0, 0])) =
    some ([some 0, some 0, some 0], [(0x03, .errBounds, 0)]) := by decide

/-- Section 2.4, by law L1. -/
theorem test_sethsv_gray :
    after storeView (exec (.sethsv 2 0 0 77) (readyWith [0, 0, 0])) =
    some ([some 0, some 0, some 0x004D4D4D], [(0x04, .ok, 0)]) := by decide

/-- Section 2.4. -/
theorem test_sethsv_bounds :
    after storeView (exec (.sethsv 5 0 0 9) (readyWith [0, 0, 0])) =
    some ([some 0, some 0, some 0], [(0x04, .errBounds, 0)]) := by decide

/-- Section 2.5: a range clamped to the store. -/
theorem test_fill_clamps :
    after storeView (exec (.fill 3 10 0xAA) ready5) =
    some ([some 1, some 2, some 3, some 0xAA, some 0xAA], [(0x05, .ok, 0)]) := by decide

/-- Section 2.5: the sum `2^32`. -/
theorem test_fill_overflow : exec (.fill 0xFFFFFFFF 1 0xAA) ready5 = .refused .fillOverflow := rfl

/-- Section 2.5. -/
theorem test_clear :
    after storeView (exec .clear ready5) =
    some ([some 0, some 0, some 0, some 0, some 0], [(0x06, .ok, 0)]) := by decide

/-- Section 2.9: N = 3, 584 bits, 73 bytes, one event. -/
theorem test_show_lengths :
    after (fun t => (t.history.map fun e =>
        match e with
        | .transmit _ bits bytes _ => (bits, bytes.length)
        | .alloc _ _ => (0, 0)
        | .busInit _ _ _ _ _ => (0, 0)
        | .deviceAttach _ _ _ _ => (0, 0)
        | .resp _ _ _ => (0, 0), t.scratch))
      (exec .showFrame (answering ready3 [.ok])) = some ([(584, 73), (0, 0)], []) := by decide

/-- Section 2.9: a SHOW answered ERROR. -/
theorem test_show_error :
    after (fun t => (t.phase, t.fault)) (exec .showFrame (answering ready3 [.error])) =
      some (.halted, some .transportTx) ∧
    after storeView (exec .showFrame (answering ready3 [.error])) =
      some ([some 0x0000FF00, some 0x00FF0000, some 0xAB0000FF], []) := by decide

/-- Section 2.6. -/
theorem test_getpx :
    after (fun t => responses t.history) (exec (.getpx 2) ready3) = some [(0x08, .ok, 0xAB0000FF)] := by decide

/-- Section 2.6. -/
theorem test_getpx_oor :
    after (fun t => (t.phase, t.fault, responses t.history)) (exec (.getpx 3) ready3) =
    some (.halted, some .readOor, []) := by decide

/-- Section 2.2: not the identity on the operand word; section 2.7: in phase Unready too. -/
theorem test_rgb2pk :
    after (fun t => responses t.history) (exec (.rgb2pk 18 52 86) (unready2 [] [])) =
    some [(0x09, .ok, 0x00341256)] := by decide

/-- Section 2.3, by law L1. -/
theorem test_hsv2pk :
    after (fun t => responses t.history) (exec (.hsv2pk 100 0 77) (unready2 [] [])) =
    some [(0x0A, .ok, 0x004D4D4D)] := by decide

/-- Section 2.7: the phase is checked before the index (R204). -/
theorem test_not_ready :
    after (fun t => (t.phase, t.fault)) (exec (.setpx 9 1) (unready2 [] [])) =
    some (.halted, some .notReady) := by decide

/-! ## The step -/

/-- `withFetchWord` places the very next command, from reset; section 2.7, row 1. -/
theorem test_fetch_from_reset :
    after (fun t => responses t.history)
      (step (State.reset.withFetchWord 128 0x09000000_00000000_00000000_00FF0000)) =
    some [(0x09, .ok, 0x0000FF00)] := by decide

/-- Section 2.7, last row: decoding precedes the phase. -/
theorem test_step_all_zero_word :
    step (State.reset.withFetchWord 128 0) = .refused .illegalEncoding := rfl

/-- R38: a direct write of a borrowed buffer. -/
theorem test_host_write :
    after storeView (step (moving (borrowed2 []) [.writeSlot 1 0xFF000009])) = some ([some 7, some 0xFF000009], []) := by
  decide

/-- R207, R230: reset is the way out of Halted. -/
theorem test_reset_leaves_halted :
    after (fun t => (t.phase, t.fault, t.handle)) (step (moving (ready3.halt .readOor) [.reset])) =
      some (.unready, none, .none) ∧
    after storeView (step (moving { borrowed2 [] with phase := .ready } [.reset])) = some ([some 7, some 8], []) := by
  decide

/-- R205, R11: a SHOW that is never answered takes its own draw only. -/
theorem test_show_unanswered :
    after (fun t => (t.waiting, t.transportAnswers))
      (exec .showFrame { ready3 with transportAnswers := [none, some .error] }) =
    some (some .transmit, [some .error]) := by decide

/-- R232: after a reset the next INIT's first answer is the next draw, OK as well as none. -/
theorem test_reset_frees_the_answer :
    after (fun t => (t.waiting, t.transportAnswer 0))
      (step (moving { ready3 with waiting := some .transmit, transportAnswers := [some .ok] } [.reset])) =
    some (none, some .ok) := by decide

/-- R38: an owned store cannot be accessed by the host. -/
theorem test_host_write_owned : step (moving ready3 [.writeSlot 0 1]) = .refused .hostAccessNotBorrowed := rfl

/-- R57: the byte at the lowest address of a slot, in each order. -/
theorem test_slot_byte :
    slotByte .little 0xAABBCCDD 0 = 0xDD ∧ slotByte .big 0xAABBCCDD 0 = 0xAA ∧
      setSlotByte .little 0xAABBCCDD 1 0x11 = 0xAABB11DD := by decide

/-! ## Pure functions -/

/-- Section 2.9, the row of `0x00123456`, in the test instantiation of the symbol-bytes (D17). -/
theorem test_enc :
    encWith 0xF8 0xC0 [0x00123456] =
    [0x00, 0xC0, 0xC0, 0xC0, 0xF8, 0xC0, 0xC0, 0xF8, 0xC0, 0xC0, 0xC0, 0xF8, 0xF8, 0xC0, 0xF8, 0xC0, 0xC0, 0xC0, 0xF8,
      0xC0, 0xF8, 0xC0, 0xF8, 0xF8, 0xC0] := by decide

/-- Section 2.9: bits `[31:24]` are not encoded. -/
theorem test_enc_masks : encWith 0xF8 0xC0 [0xAB0000FF] = encWith 0xF8 0xC0 [0x000000FF] := by decide

/-- Section 2.3, reference vectors in sectors 0, 1, 2 and 5. -/
theorem test_hsv_ref :
    hsvRef 10 100 200 = (200, 139, 121) ∧ hsvRef 60 200 100 = (68, 100, 21) ∧ hsvRef 128 128 128 = (63, 128, 127) ∧
      hsvRef 255 255 255 = (255, 0, 15) := by decide

/-- Section 2.3, reference vectors at the sector boundary 42, 43 (W4) and in sectors 3 and 4. -/
theorem test_hsv_ref_boundary :
    hsvRef 42 255 255 = (255, 252, 0) ∧ hsvRef 43 255 255 = (254, 255, 0) ∧ hsvRef 171 255 255 = (0, 3, 255) ∧
      hsvRef 214 255 255 = (252, 0, 255) := by decide

/-- Section 2.3, the sectors. -/
theorem test_sectors :
    [0, 42, 43, 85, 86, 128, 129, 171, 172, 214, 215, 255].map sector = [0, 0, 1, 1, 2, 2, 3, 3, 4, 4, 5, 5] := by decide

/-- R56: a byte most significant bit first. -/
theorem test_line_bits : lineBits true [0xC0] = [true, true, false, false, false, false, false, false] := by decide

/-- The status codes of R80 and the fault numbers of R201. -/
theorem test_codes :
    [Status.ok, .errBounds, .errAlloc].map Status.code = [0x00, 0x01, 0x02] ∧
      [FaultReason.transportBusInit, .transportAttach, .transportTx, .notReady, .readOor].map FaultReason.code =
        [1, 2, 3, 4, 5] := by decide

/-! ## Witnesses: the command word -/

theorem witness_EncodeDecodeRoundTrip : decode 0x08000000_00000002_00000000_00000000#128 = .ok (.getpx 2) := by decide

theorem witness_DecodeFollowsOpcodeTable :
    decode 0x06000000_00000000_00000000_00000000#128 = .ok .clear ∧
      ∃ row ∈ opcodeTable, ∃ row' ∈ opcodeTable,
        0x06000000_00000000_00000000_00000000#128 &&& row.mask = row.value ∧
          0x06000000_00000000_00000000_00000000#128 &&& row'.mask = row'.value := by decide

/-- The lowest and the highest bit of RSVD. -/
theorem witness_ReservedBitsRefused :
    ready3.waiting = none ∧
      (moving ready3 [.issue 0x07000001_00000000_00000000_00000000#128]).host =
        [.issue 0x07000001_00000000_00000000_00000000#128] ∧
      (0x07000001_00000000_00000000_00000000#128).getLsbD 96 = true ∧
      (0x07800000_00000000_00000000_00000000#128).getLsbD 119 = true := by decide

/-- The reserved opcodes at the ends of both ranges. -/
theorem witness_ReservedOpcodesRefused :
    (moving ready3 [.issue 0]).waiting = none ∧ (moving ready3 [.issue 0]).host = .issue 0 :: [] ∧
      (0#128).toNat / 2 ^ 120 = 0 ∧ 0x0B ≤ (0x0B000000_00000000_00000000_00000000#128).toNat / 2 ^ 120 ∧
      0x0B ≤ (0xFF000000_00000000_00000000_00000000#128).toNat / 2 ^ 120 := by decide

/-- CLEAR with A nonzero, SETRGB with `C[31:24]` nonzero. -/
theorem witness_UnusedOperandBitsRefused :
    (moving ready3 [.issue 0x06000000_00000001_00000000_00000000#128]).waiting = none ∧
      (∃ row ∈ opcodeTable, (0x06000000_00000001_00000000_00000000#128).toNat / 2 ^ 120 = row.opc.toNat ∧
        0x06000000_00000001_00000000_00000000#128 &&& row.mask ≠ row.value) ∧
      ∃ row ∈ opcodeTable, (0x03000000_00000000_00000000_01FF0000#128).toNat / 2 ^ 120 = row.opc.toNat ∧
        0x03000000_00000000_00000000_01FF0000#128 &&& row.mask ≠ row.value := by decide

theorem witness_StepRunsDecodedCommand :
    (moving ready3 [.issue (encode (.getpx 2)), .issue 0]).waiting = none ∧
      (moving ready3 [.issue (encode (.getpx 2)), .issue 0]).host = .issue (encode (.getpx 2)) :: [.issue 0] ∧
      decode (encode (.getpx 2)) = .ok (.getpx 2) := by decide

theorem witness_IdleBlockKeepsItsState : State.reset.waiting = none ∧ State.reset.host = [] := ⟨rfl, rfl⟩

/-! ## Witnesses: acceptance, halting and waiting -/

theorem witness_StoreCommandBeforeInitFaults :
    (unready2 [] []).idleIn .unready ∧
      ∀ i ∈ [Instr.setpx 9 1, .setrgb 0 1 2 3, .sethsv 0 1 2 3, .fill 0 0 0, .clear, .showFrame, .getpx 0],
        needsReady i = true := by decide

theorem witness_HaltedBlockTakesNoStep : (ready3.halt .transportTx).idleIn .halted := by decide

theorem witness_WaitingBlockAcceptsNothing :
    (ready3.waitFor .transmit).waiting = some .transmit ∧ (ready3.waitFor .transmit).host.head? ≠ some .reset := by decide

theorem witness_SecondInit :
    ready3.idleIn .ready ∧ (unready2 [.fail, .ok] []).idleIn .unready ∧ (unready2 [.fail, .ok] []).allocated = false ∧
      (unready2 [.fail, .ok] []).allocAnswer 0 = some .fail := by decide

theorem witness_RefusalMarksTheRun : step (moving ready3 [.issue 0]) = .refused .illegalEncoding := rfl

/-! ## Witnesses: INIT -/

/-- Owned and borrowed. -/
theorem witness_InitBringsTheBlockUp :
    ∀ s ∈ [unready2 [.ok] [.ok, .ok, .ok], borrowed2 [.ok, .ok, .ok, .error]],
      s.idleIn .unready ∧ s.canBack ∧ s.transportAnswer 0 = some .ok ∧ s.transportAnswer 1 = some .ok ∧
        s.transportAnswer 2 = some .ok := by decide

theorem witness_FailedAllocationTouchesNothing :
    (unready2 [.fail, .ok] []).idleIn .unready ∧ (unready2 [.fail, .ok] []).allocated = false ∧
      (unready2 [.fail, .ok] []).allocAnswer 0 = some .fail := by decide

/-- The last answer OK, ERROR, and missing. -/
theorem witness_InitClearsAndSendsAllOff :
    ∀ rest ∈ [[TransportAnswer.ok], [.error], []],
      (unready2 [.ok] (.ok :: .ok :: rest)).idleIn .unready ∧ (unready2 [.ok] (.ok :: .ok :: rest)).canBack ∧
        (unready2 [.ok] (.ok :: .ok :: rest)).transportAnswer 0 = some .ok ∧
        (unready2 [.ok] (.ok :: .ok :: rest)).transportAnswer 1 = some .ok := by decide

/-- One witness a clause. -/
theorem witness_InitTransportFaultsArePrecise :
    (∀ s ∈ [unready2 [.ok] [.error], unready2 [.ok] [.ok, .error], unready2 [.ok] [.ok, .ok, .error]],
      s.idleIn .unready ∧ s.canBack) ∧
      (unready2 [.ok] [.error]).transportAnswer 0 = some .error ∧
      (unready2 [.ok] [.ok, .error]).transportAnswer 0 = some .ok ∧
      (unready2 [.ok] [.ok, .error]).transportAnswer 1 = some .error ∧
      (unready2 [.ok] [.ok, .ok, .error]).transportAnswer 0 = some .ok ∧
      (unready2 [.ok] [.ok, .ok, .error]).transportAnswer 1 = some .ok ∧
      (unready2 [.ok] [.ok, .ok, .error]).transportAnswer 2 = some .error := by decide

/-- One witness a clause: a list that has ended, and a draw that is no answer with others after it. -/
theorem witness_InitWaitsForAnAnswer :
    (unready2 [] []).idleIn .unready ∧ (unready2 [] []).allocated = false ∧ (unready2 [] []).allocAnswer 0 = none ∧
      (borrowed2 []).idleIn .unready ∧ (borrowed2 []).canBack ∧ (borrowed2 []).transportAnswer 0 = none ∧
      (borrowed2 [.ok]).canBack ∧ (borrowed2 [.ok]).transportAnswer 0 = some .ok ∧
      (borrowed2 [.ok]).transportAnswer 1 = none ∧
      { borrowed2 [] with transportAnswers := [some .ok, some .ok, none, some .ok] }.canBack ∧
      { borrowed2 [] with transportAnswers := [some .ok, some .ok, none, some .ok] }.transportAnswer 1 = some .ok ∧
      { borrowed2 [] with transportAnswers := [some .ok, some .ok, none, some .ok] }.transportAnswer 2 = none := by decide

/-- The clause of a wait that did begin. -/
theorem witness_InitWaitsForAnAnswer_waiting :
    after (fun t => t.waiting) (exec (.init 5 1 8000000) (borrowed2 [.ok, .ok])) = some (some .transmit) := by decide

theorem witness_InitFrame :
    (∃ t, exec (.init 5 1 8000000) (unready2 [.ok] [.ok, .ok, .ok]) = .next t) ∧
      (unready2 [.ok] [.ok, .ok, .ok]).pix = [] ∧
      (∃ t, exec (.init 5 1 8000000) (borrowed2 [.ok, .error]) = .next t) ∧
      (borrowed2 [.ok, .error]).allocated = true ∧ storesTo 2 2 (.init 5 1 8000000) = false :=
  ⟨⟨_, rfl⟩, rfl, ⟨_, rfl⟩, rfl, rfl⟩

/-! ## Witnesses: the store -/

/-- The first and the last slot. -/
theorem witness_SetpxWritesItsSlot :
    ready3.idleIn .ready ∧ (0 : Slot).toNat < ready3.count ∧ (2 : Slot).toNat < ready3.count := by decide

theorem witness_SetrgbWritesPackedColor :
    ready3.idleIn .ready ∧ (0 : Slot).toNat < ready3.count ∧ (2 : Slot).toNat < ready3.count := by decide

/-- With `sat = 0` and with `val = 0` among the operands. -/
theorem witness_SethsvWritesConvertedColor :
    ready3.idleIn .ready ∧ (2 : Slot).toNat < ready3.count ∧ ((0, 77) : Byte × Byte).1 = 0#8 ∧
      ((255, 0) : Byte × Byte).2 = 0#8 := by decide

/-- The first index beyond the store and the last one. -/
theorem witness_BoundsViolationIsANoOp :
    ready3.idleIn .ready ∧ ready3.count ≤ (3 : Slot).toNat ∧ ready3.count ≤ (0xFFFFFFFF : Slot).toNat ∧
      (∃ color, Instr.setpx 3 1 = .setpx 3 color) ∧ (∃ r g b, Instr.setrgb 3 1 2 3 = .setrgb 3 r g b) ∧
      (∃ hue sat val, Instr.sethsv 3 0 0 9 = .sethsv 3 hue sat val) :=
  ⟨by decide, by decide, by decide, ⟨_, rfl⟩, ⟨_, _, _, rfl⟩, ⟨_, _, _, rfl⟩⟩

/-- The sum `2^32` is refused, the sum `2^32 - 1` and `cnt = 0` are not. -/
theorem witness_FillWritesItsRange :
    ready5.idleIn .ready ∧
      ((1 : Slot) ≠ 0#32 ∧ 2 ^ 32 ≤ (0xFFFFFFFF : Slot).toNat + (1 : Slot).toNat) ∧
      ¬ ((1 : Slot) ≠ 0#32 ∧ 2 ^ 32 ≤ (0xFFFFFFFE : Slot).toNat + (1 : Slot).toNat) ∧
      ¬ ((0 : Slot) ≠ 0#32 ∧ 2 ^ 32 ≤ (0xFFFFFFFF : Slot).toNat + (0 : Slot).toNat) := by decide

theorem witness_ClearZeroesTheStore : ready5.idleIn .ready := by decide

theorem witness_GetpxReturnsItsSlot :
    ready3.idleIn .ready ∧ (2 : Slot).toNat < ready3.count ∧
      Memory.read ready3.pix (2 : Slot).toNat = some 0xAB0000FF := by decide

theorem witness_GetpxBeyondTheStoreFaults :
    ready3.idleIn .ready ∧ ready3.count ≤ (3 : Slot).toNat ∧ ready3.count ≤ (0xFFFFFFFF : Slot).toNat := by decide

theorem witness_SetpxGetpxRoundTrip :
    ready3.idleIn .ready ∧ (0 : Slot).toNat < ready3.count ∧ (2 : Slot).toNat < ready3.count := by decide

theorem witness_GetpxSweepReadsTheStore :
    ready3.idleIn .ready ∧ ready3.allValued ∧ ready3.count ≤ 2 ^ 32 ∧
      { borrowed2 [] with phase := .ready }.idleIn .ready ∧ { borrowed2 [] with phase := .ready }.allValued ∧
      { borrowed2 [] with phase := .ready }.backing = .borrowed ∧ 1 < (borrowed2 []).count := by decide

theorem witness_StoreCommandsAreIdempotent :
    ready3.idleIn .ready ∧ (∃ t, exec (.setpx 3 1) ready3 = .next t) ∧ (∃ t, exec (.setrgb 0 1 2 3) ready3 = .next t) ∧
      (∃ t, exec (.sethsv 0 1 0 3) ready3 = .next t) ∧ (∃ t, exec (.fill 1 9 7) ready3 = .next t) ∧
      (∃ t, exec .clear ready3 = .next t) :=
  ⟨by decide, ⟨_, rfl⟩, ⟨_, rfl⟩, ⟨_, rfl⟩, ⟨_, rfl⟩, ⟨_, rfl⟩⟩

/-- A command that stores, one that transmits, one that only responds. -/
theorem witness_CommandFrame :
    isInit (.fill 1 1 7) = false ∧ (∃ t, exec (.fill 1 1 7) ready3 = .next t) ∧
      storesTo ready3.count 2 (.fill 1 1 7) = false ∧ storesTo ready3.count 0 (.fill 1 1 7) = false ∧
      (∃ t, exec .showFrame (answering ready3 [.ok]) = .next t) ∧ isInit .showFrame = false ∧
      (∃ t, exec (.rgb2pk 1 2 3) ready3 = .next t) ∧ isInit (.rgb2pk 1 2 3) = false :=
  ⟨rfl, ⟨_, rfl⟩, by decide, by decide, ⟨_, rfl⟩, rfl, ⟨_, rfl⟩, rfl⟩

/-! ## Witnesses: color and the encoder -/

theorem witness_PackUnpack :
    pack 1 2 3 = pack 1 2 3 ∧ (0x00FFFFFF#32).extractLsb' 24 8 = 0#8 := by decide

theorem witness_Rgb2pkResponds : (unready2 [] []).waiting = none ∧ (unready2 [] []).phase ≠ .halted := by decide

theorem witness_Hsv2pkResponds :
    (unready2 [] []).waiting = none ∧ (unready2 [] []).phase ≠ .halted ∧ ready3.waiting = none ∧
      ready3.phase ≠ .halted := by decide

theorem witness_ReferenceHsvObeysLaws : (1 : Byte) ≠ 0#8 := by decide

theorem witness_EncodingFormula :
    ([1, 2] : List Slot)[1]? = some 2 ∧ ([1, 2] : List Slot)[0]? = some 1 ∧ (0 < 24) ∧ (23 < 24) := by decide

theorem witness_EncodingLaws :
    ([1] : List Slot)[0]? = some 1 ∧ ([3] : List Slot)[0]? = some 3 ∧ 23 < 24 ∧
      (1 : Slot).getLsbD (23 - 23) = (3 : Slot).getLsbD (23 - 23) ∧
      ([1] : List Slot).length = ([3] : List Slot).length ∧ (enc [1]).tail ≠ [] := by
  refine ⟨rfl, rfl, by decide, by decide, rfl, ?_⟩
  exact List.cons_ne_nil _ _

theorem witness_ShowSendsTheStore :
    (answering ready3 [.ok]).idleIn .ready ∧ (answering ready3 [.ok]).allValued ∧
      (answering ready3 [.ok]).transportAnswer 0 = some .ok := by decide

/-- SHOW and INIT. -/
theorem witness_TransmitErrorIsAFault :
    (answering ready3 [.error]).idleIn .ready ∧ (answering ready3 [.error]).allValued ∧
      (answering ready3 [.error]).transportAnswer 0 = some .error ∧
      (borrowed2 [.ok, .ok, .error]).idleIn .unready ∧ (borrowed2 [.ok, .ok, .error]).canBack ∧
      (borrowed2 [.ok, .ok, .error]).transportAnswer 0 = some .ok ∧
      (borrowed2 [.ok, .ok, .error]).transportAnswer 1 = some .ok ∧
      (borrowed2 [.ok, .ok, .error]).transportAnswer 2 = some .error := by decide

theorem witness_ShowWaitsForAnAnswer :
    ready3.idleIn .ready ∧ ready3.allValued ∧ ready3.transportAnswer 0 = none := by decide

/-- SHOW and INIT. -/
theorem witness_OneWholeTransferNoRetry :
    ready3.idleIn .ready ∧ ready3.allValued ∧ (borrowed2 [.ok, .ok]).idleIn .unready ∧
      (borrowed2 [.ok, .ok]).canBack ∧ (borrowed2 [.ok, .ok]).transportAnswer 0 = some .ok ∧
      (borrowed2 [.ok, .ok]).transportAnswer 1 = some .ok := by decide

/-- SHOW and INIT, each with no answer and with ERROR. -/
theorem witness_ScratchHoldsTheFrame :
    (∀ answers ∈ [[], [TransportAnswer.error]], (answering ready3 answers).idleIn .ready ∧
      (answering ready3 answers).allValued ∧ (answering ready3 answers).transportAnswer 0 ≠ some .ok) ∧
      ∀ rest ∈ [[], [TransportAnswer.error]], (borrowed2 (.ok :: .ok :: rest)).idleIn .unready ∧
        (borrowed2 (.ok :: .ok :: rest)).canBack ∧ (borrowed2 (.ok :: .ok :: rest)).transportAnswer 0 = some .ok ∧
        (borrowed2 (.ok :: .ok :: rest)).transportAnswer 1 = some .ok ∧
        (borrowed2 (.ok :: .ok :: rest)).transportAnswer 2 ≠ some .ok := by decide

theorem witness_ShowSendsTheLatestWrite :
    ready3.idleIn .ready ∧ ready3.allValued ∧ (2 : Slot).toNat < ready3.count := by decide

theorem witness_LineSignalOrder : ([0xC0, 0x00] : List Byte)[1]? = some 0x00 ∧ 7 < 8 := by decide

/-! ## Witnesses: the host -/

/-- Inside the store and beyond it. -/
theorem witness_HostWritesLikeSetpx :
    ∀ index ∈ [1, 2],
      (moving { borrowed2 [] with phase := .ready } [.writeSlot index 9]).waiting = none ∧
        (moving { borrowed2 [] with phase := .ready } [.writeSlot index 9]).phase ≠ .halted ∧
        (moving { borrowed2 [] with phase := .ready } [.writeSlot index 9]).backing = .borrowed ∧
        (moving { borrowed2 [] with phase := .ready } [.writeSlot index 9]).host = .writeSlot index 9 :: [] := by decide

/-- The last byte of the store, and the first beyond it. -/
theorem witness_HostByteRoundTrip :
    (∀ address ∈ [7, 8],
      (moving (borrowed2 []) [.writeByte address 9]).waiting = none ∧
        (moving (borrowed2 []) [.writeByte address 9]).phase ≠ .halted ∧
        (moving (borrowed2 []) [.writeByte address 9]).backing = .borrowed ∧
        (moving (borrowed2 []) [.writeByte address 9]).host = .writeByte address 9 :: []) ∧
      (borrowed2 []).allValued ∧ 7 / 4 < (borrowed2 []).count ∧ (borrowed2 []).count ≤ 8 / 4 ∧ 6 ≠ 7 := by decide

/-! ## Witnesses: the whole machine -/

/-- The invariant holds in a state of phase Ready with a command to come. -/
theorem test_ready_inv : (moving (answering ready3 [.ok]) [.issue (encode .showFrame)]).Inv where
  pixWf := by decide
  pixBelow := by decide
  scratchWf := by decide
  scratchBelow := by decide
  faultIffHalted := by decide
  haltedNotWaiting := by decide
  borrowedBacked := by decide
  unbackedEmpty := by decide
  readyComplete := by decide
  idleScratch := by decide
  pendingFrame := by intro h; simp [moving, answering, ready3, readyWith] at h
  historyWf := by intro e h; simp [moving, answering, ready3, readyWith] at h

theorem witness_StepKeepsInvariant :
    (moving (answering ready3 [.ok]) [.issue (encode .showFrame)]).Inv ∧
      ∃ t, step (moving (answering ready3 [.ok]) [.issue (encode .showFrame)]) = .next t :=
  ⟨test_ready_inv, ⟨_, rfl⟩⟩

/-- From Unready to Ready, from Ready to Halted, by reset back to Unready, and a step of a halted block with no move to come. -/
theorem witness_PhaseLifeCycle :
    after (fun t => t.phase) (step (moving (borrowed2 [.ok, .ok, .ok]) [.issue (encode (.init 5 1 8000000))])) =
        some .ready ∧
      after (fun t => t.phase) (step (moving ready3 [.issue (encode (.getpx 3))])) = some .halted ∧
      after (fun t => t.phase) (step (moving ready3 [.reset])) = some .unready ∧
      after (fun t => t.phase) (step (ready3.halt .readOor)) = some .halted := by decide

/-- A command and a reset. -/
theorem witness_NothingIsTakenBack :
    (∃ t, step (moving ready3 [.issue (encode .clear)]) = .next t) ∧ ready3.allocated = true ∧
      ready3.handle = .session ∧ (moving ready3 [.issue (encode .clear)]).host.head? ≠ some .reset ∧
      (∃ t, step (moving (borrowed2 []) [.reset]) = .next t) ∧ (borrowed2 []).backing = .borrowed ∧
      (borrowed2 []).allocated = true :=
  ⟨⟨_, rfl⟩, rfl, rfl, by decide, ⟨_, rfl⟩, rfl, rfl⟩

theorem witness_HistoryOnlyGrows :
    (∃ t, step (moving ready3 [.issue (encode .clear)]) = .next t) ∧ (∃ t, step (moving ready3 [.reset]) = .next t) :=
  ⟨⟨_, rfl⟩, ⟨_, rfl⟩⟩

/-- A halted block and a waiting one. -/
theorem witness_ResetValues :
    (moving (ready3.halt .readOor) [.reset]).host = .reset :: [] ∧
      (moving (ready3.waitFor .transmit) [.reset]).host = .reset :: [] := by decide

/-- A command that responds and one that faults. -/
theorem witness_ResponseDataWords :
    (∃ t, exec (.getpx 2) ready3 = .next t) ∧ (∃ t, exec (.getpx 3) ready3 = .next t) := ⟨⟨_, rfl⟩, ⟨_, rfl⟩⟩

end Sys2Proof.Tests
end

/-! Proofs: a configuration is well formed exactly when the five bounds of R8 hold, construction refuses every other one,
and the machine's own configuration is well formed. -/

namespace Sys2Proof

/-! ## What each named check says -/

@[simp] theorem Params.countPositive_iff (p : Params) : p.countPositive = true ↔ 1 ≤ p.count := decide_eq_true_iff

@[simp] theorem Params.countSupported_iff (p : Params) : p.countSupported = true ↔ p.count ≤ p.maxCount :=
  decide_eq_true_iff

@[simp] theorem Params.frameFits_iff (p : Params) :
    p.frameFits = true ↔ 24 * p.count + 1 ≤ p.maxTransferBytes := decide_eq_true_iff

@[simp] theorem Params.symbolsDiffer_iff (p : Params) : p.symbolsDiffer = true ↔ p.sym1 ≠ p.sym0 := decide_eq_true_iff

@[simp] theorem Params.bufferLargeEnough_iff (p : Params) :
    p.bufferLargeEnough = true ↔ (p.backing = .borrowed → p.count ≤ p.hostSlots) := by
  unfold Params.bufferLargeEnough
  cases p.backing with
  | owned => simp
  | borrowed => simp

/-- R8: all five bounds together. -/
theorem Params.wf_iff (p : Params) :
    p.wf = true ↔ 1 ≤ p.count ∧ p.count ≤ p.maxCount ∧ 24 * p.count + 1 ≤ p.maxTransferBytes ∧ p.sym1 ≠ p.sym0 ∧
      (p.backing = .borrowed → p.count ≤ p.hostSlots) := by
  simp [Params.wf, and_assoc]

/-! ## The machine's own configuration -/

/-- No byte is its own complement: they differ in bit 0. -/
theorem Byte.not_ne_self (b : Byte) : ~~~ b ≠ b := by
  intro h
  have hbit : (~~~ b).getLsbD 0 = b.getLsbD 0 := congrArg (BitVec.getLsbD · 0) h
  simp at hbit

/-- The fallback of `SYM1` differs from `SYM0` as the source byte does when it is taken. -/
theorem Config.sym1_ne_sym0 : Config.sym1 ≠ Config.sym0 := by
  unfold Config.sym1
  split
  · exact Byte.not_ne_self _
  · assumption

theorem Config.params_wf : Config.params.wf = true :=
  (Params.wf_iff _).mpr
    ⟨Nat.le_add_left .., Nat.le_add_right .., Nat.le_add_right .., Config.sym1_ne_sym0, fun _ => Nat.le_add_right ..⟩

end Sys2Proof

namespace Sys2Proof.Machine

/-! ## Construction -/

theorem State.construct_of_wf {p : Params} (h : p.wf = true) (buffer : Nat → Slot)
    (alloc : List (Option AllocAnswer)) (transport : List (Option TransportAnswer)) :
    State.construct p buffer alloc transport = some (State.resetOf p buffer alloc transport) := if_pos h

/-- Settles O53: construction branches on `Params.wf`, which is the conjunction of the five bounds of R8, and the
machine's own parameters meet them by the way they are built. -/
theorem illFormedConfigurationRefused : Obligations.IllFormedConfigurationRefused := by
  refine ⟨fun p buffer alloc transport => ?_, State.construct_of_wf Config.params_wf .., Config.sym1_ne_sym0⟩
  simp only [State.construct, Params.wf_iff]

end Sys2Proof.Machine

/-! Proofs: the decoder follows the rows of the opcode table (spec 30_encoding.md R73 to R78), and a command responds at
most once, with the data word of its rule (R81). -/

namespace Sys2Proof

open Laws.EncodeFields (opcOf_commandWord rsvdOf_commandWord)

/-! ## The rows of the opcode table, field by field -/

/-- A word is the one built from given parts exactly when its fields are those parts and its RSVD is zero (R70, R73). -/
theorem eq_commandWord_iff (w : CommandWord) (o : Byte) (a b c : Slot) :
    w = commandWord o a b c ↔ opcOf w = o ∧ rsvdOf w = 0#24 ∧ slotA w = a ∧ slotB w = b ∧ slotC w = c := by
  constructor
  · rintro rfl
    exact ⟨opcOf_commandWord .., rsvdOf_commandWord .., slotA_commandWord .., slotB_commandWord ..,
      slotC_commandWord ..⟩
  · rintro ⟨rfl, hr, rfl, rfl, rfl⟩
    exact (commandWord_of_parts w hr).symm

/-- Every row fixes `OPC` and `RSVD` whole, and matches zero in the operand bits its mask has (R73, R74, R78). -/
theorem opcodeTable_shape : ∀ row ∈ opcodeTable,
    opcOf row.mask = BitVec.allOnes 8 ∧ rsvdOf row.mask = BitVec.allOnes 24 ∧
      row.value = commandWord row.opc 0#32 0#32 0#32 := by decide

/-- The operand bits of a word that a row's mask has are zero (R74). -/
def OpcodeRow.unusedZero (row : OpcodeRow) (w : CommandWord) : Prop :=
  slotA w &&& slotA row.mask = 0#32 ∧ slotB w &&& slotB row.mask = 0#32 ∧ slotC w &&& slotC row.mask = 0#32

/-- What the mask of a row tests, field by field (R78). -/
theorem and_mask_eq_value_iff {row : OpcodeRow} (hrow : row ∈ opcodeTable) (w : CommandWord) :
    w &&& row.mask = row.value ↔ opcOf w = row.opc ∧ rsvdOf w = 0#24 ∧ row.unusedZero w := by
  obtain ⟨hopc, hrsvd, hvalue⟩ := opcodeTable_shape row hrow
  have ho : opcOf (w &&& row.mask) = opcOf w := by
    rw [opcOf, BitVec.extractLsb'_and, ← opcOf, ← opcOf, hopc, BitVec.and_allOnes]
  have hr : rsvdOf (w &&& row.mask) = rsvdOf w := by
    rw [rsvdOf, BitVec.extractLsb'_and, ← rsvdOf, ← rsvdOf, hrsvd, BitVec.and_allOnes]
  rw [hvalue, eq_commandWord_iff, ho, hr]
  simp only [OpcodeRow.unusedZero, slotA, slotB, slotC, BitVec.extractLsb'_and]

/-- The operand masks of the ten rows, slot by slot: the must-be-zero column of R75. -/
theorem operandMasks_of_mem {row : OpcodeRow} (hrow : row ∈ opcodeTable) :
    (row.opc, slotA row.mask, slotB row.mask, slotC row.mask) ∈
      [(0x01#8, 0#32, 0#32, 0#32), (0x02#8, 0#32, .allOnes 32, 0#32), (0x03#8, 0#32, .allOnes 32, 0xFF000000#32),
        (0x04#8, 0#32, .allOnes 32, 0xFF000000#32), (0x05#8, 0#32, 0#32, 0#32),
        (0x06#8, .allOnes 32, .allOnes 32, .allOnes 32), (0x07#8, .allOnes 32, .allOnes 32, .allOnes 32),
        (0x08#8, 0#32, .allOnes 32, .allOnes 32), (0x09#8, .allOnes 32, .allOnes 32, 0xFF000000#32),
        (0x0A#8, .allOnes 32, .allOnes 32, 0xFF000000#32)] := by
  revert row
  decide

/-- Masking slot C with its top byte tests `C[31:24]` (R74). -/
theorem slotC_and_topByte_eq_zero_iff (w : CommandWord) : slotC w &&& 0xFF000000#32 = 0#32 ↔ topOfC w = 0#8 := by
  constructor
  · intro h
    have htop := congrArg (BitVec.extractLsb' 24 8) h
    rw [BitVec.extractLsb'_and, ← (fields_of_slotC w).1,
      show (0xFF000000#32).extractLsb' 24 8 = BitVec.allOnes 8 by decide, BitVec.and_allOnes] at htop
    exact htop
  · intro h
    have hlow : ∀ k < 24, (0xFF000000#32).getLsbD k = false := by decide
    apply BitVec.eq_of_getLsbD_eq
    intro k hk
    by_cases hk' : k < 24
    · simp [hlow k hk']
    · have hbit : w.getLsbD k = false := extractLsb_eq_zero.mp h k (by omega) (by omega)
      simp [slotC, hbit]

/-! ## What the decoder accepts -/

theorem whenZero_eq_ok_iff {b : Bool} {i j : Instr} : whenZero b i = .ok j ↔ b = true ∧ i = j := by
  cases b <;> simp [whenZero]

theorem decode_eq_ok_iff {w : CommandWord} {i : Instr} :
    decode w = .ok i ↔ rsvdOf w = 0#24 ∧ decodeOpcode w = .ok i := by
  unfold decode
  split <;> simp_all

/-- A word decodes to a command of its own opcode (R75): each branch of the decoder tests the opcode of the command it
gives, and the check of the unused bits passes that command on. -/
theorem opcode_of_decodeOpcode {w : CommandWord} {i : Instr} (h : decodeOpcode w = .ok i) : opcode i = opcOf w := by
  unfold decodeOpcode at h
  split_ifs at h <;> grind [whenZero_eq_ok_iff, opcode]

/-- A word with the opcode of a row decodes, its RSVD aside, exactly when the operand bits of the row's mask are zero:
the decoder's branch for the row checks the same slots (R74, R75). -/
theorem decodeOpcode_isOk_iff {row : OpcodeRow} (hrow : row ∈ opcodeTable) {w : CommandWord}
    (hopc : opcOf w = row.opc) : (∃ i, decodeOpcode w = .ok i) ↔ row.unusedZero w := by
  have hmasks := operandMasks_of_mem hrow
  simp only [List.mem_cons, List.not_mem_nil, or_false, Prod.mk.injEq] at hmasks
  unfold OpcodeRow.unusedZero decodeOpcode
  rw [hopc]
  rcases hmasks with h | h | h | h | h | h | h | h | h | h <;>
    simp [h, whenZero_eq_ok_iff, slotC_and_topByte_eq_zero_iff, and_assoc, -BitVec.reduceAllOnes]

/-- A word decodes to a command with the opcode of a row exactly when the row matches it (R78). -/
theorem exists_decode_opcode_iff {row : OpcodeRow} (hrow : row ∈ opcodeTable) (w : CommandWord) :
    (∃ i, decode w = .ok i ∧ opcode i = row.opc) ↔ w &&& row.mask = row.value := by
  rw [and_mask_eq_value_iff hrow]
  constructor
  · rintro ⟨i, hd, ho⟩
    obtain ⟨hr, hd⟩ := decode_eq_ok_iff.mp hd
    have hopc : opcOf w = row.opc := (opcode_of_decodeOpcode hd).symm.trans ho
    exact ⟨hopc, hr, (decodeOpcode_isOk_iff hrow hopc).mp ⟨i, hd⟩⟩
  · rintro ⟨hopc, hr, hz⟩
    obtain ⟨i, hd⟩ := (decodeOpcode_isOk_iff hrow hopc).mpr hz
    exact ⟨i, decode_eq_ok_iff.mpr ⟨hr, hd⟩, (opcode_of_decodeOpcode hd).trans hopc⟩

/-- Every command has a row (R75). -/
theorem exists_row_of_opcode (i : Instr) : ∃ row ∈ opcodeTable, opcode i = row.opc := by
  cases i <;> simp [opcodeTable, opcode]

theorem opcodeTable_opc_nodup : (opcodeTable.map fun row => row.opc).Nodup := by decide

/-- Two rows that match one word are one row, since both fix `OPC` to the word's own (R78). -/
theorem row_eq_of_matches {w : CommandWord} {row row' : OpcodeRow} (h : row ∈ opcodeTable) (h' : row' ∈ opcodeTable)
    (hm : w &&& row.mask = row.value) (hm' : w &&& row'.mask = row'.value) : row = row' := by
  obtain ⟨ho, -⟩ := (and_mask_eq_value_iff h w).mp hm
  obtain ⟨ho', -⟩ := (and_mask_eq_value_iff h' w).mp hm'
  exact List.inj_on_of_nodup_map opcodeTable_opc_nodup h h' (ho.symm.trans ho')

/-- The decoder has one refusal, so a word it gives no command is refused with it (R78). -/
theorem decode_eq_error {w : CommandWord} (h : ∀ i, decode w ≠ .ok i) : decode w = .error .illegalEncoding := by
  cases hd : decode w with
  | ok i => exact absurd hd (h i)
  | error e => cases e; rfl

/-- Settles O4: the mask of a row tests what the decoder's branch for the row tests, and the rows' opcodes differ. -/
theorem decodeFollowsOpcodeTable : Obligations.DecodeFollowsOpcodeTable := by
  refine ⟨fun w => ?_, fun w row h => exists_decode_opcode_iff h w, fun _ i _ => exists_row_of_opcode i,
    fun _ _ _ h h' => row_eq_of_matches h h', opcodeTable_opc_nodup⟩
  by_cases h : ∃ i, decode w = .ok i
  · exact .inl h
  · exact .inr (decode_eq_error (not_exists.mp h))

end Sys2Proof

namespace Sys2Proof.Machine

/-! ## Words the step refuses -/

/-- A word that decodes to nothing is refused by the step that would run it (R78, 60_exceptions.md R202, R204). -/
theorem step_refused_of_decode {s : State} {w : CommandWord} {rest : List HostMove} (hw : s.waiting = none)
    (hh : s.host = .issue w :: rest) (hd : ∀ i, decode w ≠ .ok i) : step s = .refused .illegalEncoding := by
  simp [step, hh, whenAnswered, hw, runWord, decode_eq_error hd]

/-- Settles O5: only a word with a zero RSVD decodes. -/
theorem reservedBitsRefused : Obligations.ReservedBitsRefused := by
  intro s w rest k hw hh hlo hhi hbit
  refine step_refused_of_decode hw hh fun i hd => ?_
  obtain ⟨hr, -⟩ := decode_eq_ok_iff.mp hd
  have hzero : w.getLsbD k = false := extractLsb_eq_zero.mp hr k hlo (by omega)
  simp [hzero] at hbit

/-- The opcodes of the commands are 0x01 to 0x0A (R75). -/
theorem opcode_range (i : Instr) : 0x01 ≤ (opcode i).toNat ∧ (opcode i).toNat ≤ 0x0A := by
  cases i <;> simp [opcode]

/-- Settles O6: a word that decodes has the opcode of a command. -/
theorem reservedOpcodesRefused : Obligations.ReservedOpcodesRefused := by
  intro s w rest hw hh hopc
  refine step_refused_of_decode hw hh fun i hd => ?_
  obtain ⟨-, hd⟩ := decode_eq_ok_iff.mp hd
  rw [← opcOf_toNat, ← opcode_of_decodeOpcode hd] at hopc
  have hrange := opcode_range i
  omega

/-- Settles O7: a word of a row's opcode that decodes is one the row matches. -/
theorem unusedOperandBitsRefused : Obligations.UnusedOperandBitsRefused := by
  intro s w rest row hw hh hrow hopc hne
  refine step_refused_of_decode hw hh fun i hd => ?_
  obtain ⟨-, hd'⟩ := decode_eq_ok_iff.mp hd
  have ho : opcode i = row.opc := by
    rw [opcode_of_decodeOpcode hd', ← BitVec.toNat_inj, opcOf_toNat, hopc]
  exact hne ((exists_decode_opcode_iff hrow w).mp ⟨i, hd, ho⟩)

/-! ## Responses -/

@[simp] theorem responses_nil : responses [] = [] := rfl
@[simp] theorem responses_resp_cons (o : Byte) (st : Status) (d : Slot) (h : List Event) :
    responses (.resp o st d :: h) = (o, st, d) :: responses h := rfl
@[simp] theorem responses_alloc_cons (n : Nat) (a : Option AllocAnswer) (h : List Event) :
    responses (.alloc n a :: h) = responses h := rfl
@[simp] theorem responses_busInit_cons (pin bus : Slot) (n : Nat) (off : Bool) (a : Option TransportAnswer)
    (h : List Event) : responses (.busInit pin bus n off a :: h) = responses h := rfl
@[simp] theorem responses_deviceAttach_cons (bus freq : Slot) (dma : Bool) (a : Option TransportAnswer)
    (h : List Event) : responses (.deviceAttach bus freq dma a :: h) = responses h := rfl
@[simp] theorem responses_allOffEvent_cons (s : State) (a : Option TransportAnswer) (h : List Event) :
    responses (s.allOffEvent a :: h) = responses h := rfl
@[simp] theorem responses_showEvent_cons (s : State) (a : Option TransportAnswer) (h : List Event) :
    responses (s.showEvent a :: h) = responses h := rfl

@[simp] theorem State.showFramed_history (s : State) : s.showFramed.history = s.history := rfl

theorem responses_respond (s : State) (o : Byte) (st : Status) (d : Slot) :
    responses (s.respond o st d).history = responses s.history ++ [(o, st, d)] := responses_append ..

@[simp] theorem responses_backed (s : State) : responses s.backed.history = responses s.history := by
  rw [State.backed_history, responses_append]
  split <;> simp

@[simp] theorem responses_busReady (s : State) (pin bus freq : Slot) :
    responses (s.busReady pin bus freq).history = responses s.history := by
  simp [State.busReady, responses_append]

@[simp] theorem responses_framed (s : State) (pin bus freq : Slot) :
    responses (s.framed pin bus freq).history = responses s.history := by
  simp [State.framed, State.readyToTransmit, responses_append]

/-- From `s` to `t` the block gave no response, or one under `opc` with a zero data word (R81). -/
def State.respondsZero (s : State) (opc : Byte) (t : State) : Prop :=
  responses t.history = responses s.history ∨
    ∃ st, responses t.history = responses s.history ++ [(opc, st, 0#32)]

/-- INIT responds once where its allocation fails and where it completes; every other way it ends is silent (R81, R101,
R102). -/
theorem initialise_respondsZero (s : State) (pin bus freq : Slot) :
    s.respondsZero 0x01#8 (s.initialise pin bus freq) := by
  apply s.initialise_cases pin bus freq (s.respondsZero 0x01#8)
  case allocFails => intros; exact .inr ⟨.errAlloc, by simp [responses_append]⟩
  case done => intros; exact .inr ⟨.ok, by simp [responses_append]⟩
  all_goals intros; exact .inl (by simp [responses_append])

/-- SHOW responds once where its transmission is answered OK; every other way it ends is silent (R81, R173). -/
theorem show_respondsZero (s : State) : s.respondsZero 0x07#8 (s.transmit fun t => t.respond 0x07#8 .ok 0#32) := by
  apply s.show_cases (s.respondsZero 0x07#8)
  case done => intros; exact .inr ⟨.ok, by simp [responses_append]⟩
  all_goals intros; exact .inl (by simp [responses_append])

/-- Settles O58, along the ways a command can end in a next state: each gives no response or just its own. -/
theorem responseDataWords : Obligations.ResponseDataWords := by
  intro i s t h
  cases hi : isInit i with
  | true =>
    cases i <;> cases hi
    obtain ⟨-, rfl⟩ := exec_init_next h
    exact (initialise_respondsZero s _ _ _).imp_right fun ⟨st, hst⟩ => ⟨st, _, hst, rfl⟩
  | false =>
    apply exec_next_cases hi h
    case notReady => intros; exact .inl rfl
    case writes =>
      rintro - index color hc -
      refine .inr ⟨.ok, 0#32, responses_respond .., ?_⟩
      obtain rfl | ⟨r, g, b, rfl, -⟩ | ⟨hue, sat, val, rfl, -⟩ := hc <;> rfl
    case errBounds =>
      intro _ ho
      refine .inr ⟨.errBounds, 0#32, responses_respond .., ?_⟩
      cases i <;> simp [opcode] at ho <;> rfl
    case fills => rintro - first cnt color stop rfl -; exact .inr ⟨.ok, _, responses_respond .., rfl⟩
    case clears => rintro - rfl; exact .inr ⟨.ok, _, responses_respond .., rfl⟩
    case shows =>
      rintro - rfl -
      exact (show_respondsZero s).imp_right fun ⟨st, hr⟩ => ⟨st, _, hr, rfl⟩
    case reads => rintro - index v rfl - hv; exact .inr ⟨.ok, _, responses_respond .., rfl, hv⟩
    case readOor => intros; exact .inl rfl
    case packs => rintro - - r g b rfl; exact .inr ⟨.ok, _, responses_respond .., rfl, rfl⟩
    case converts => rintro - - hue sat val rfl; exact .inr ⟨.ok, _, responses_respond .., rfl, rfl⟩

end Sys2Proof.Machine

/-! Proofs: the Pixel Store commands (spec 40_pixel_store.md): GETPX in order over the whole store (R131), the range of a
fill (R121, R122), a second INIT (R105), the all-off frame of INIT (R104), and the index beyond the store (R111), for which
every command is shown to commute with what stands in front of the history. -/

namespace Sys2Proof.Machine

/-! ## GETPX -/

theorem State.read_of_allValued {s : State} (hv : s.allValued) {i : Nat} (hi : i < s.count) :
    Memory.read s.pix i = some (s.slotValue i) := by
  obtain ⟨v, hr⟩ := Option.isSome_iff_exists.mp (hv i hi)
  simp [State.slotValue, hr]

/-- GETPX of a slot that holds a value only adds its response (R130). -/
theorem exec_getpx_of_read {s : State} (hs : s.idleIn .ready) {index v : Slot} (hi : index.toNat < s.count)
    (hv : Memory.read s.pix index.toNat = some v) : exec (.getpx index) s = .next (s.respond 0x08#8 .ok v) := by
  refine (accept_store_ready hs _).trans ?_
  rw [if_pos (by simpa [State.inStore] using hi), hv]

/-- The event of a GETPX that reads slot `i`. -/
def State.readEvent (s : State) (i : Nat) : Event := .resp 0x08#8 .ok (s.slotValue i)

/-- Reads of slots of the store, in any order, add their responses in that order and nothing else (R130, R131). -/
theorem runCommands_getpx {s : State} (hs : s.idleIn .ready) (hv : s.allValued) (hn : s.count ≤ 2 ^ 32) {l : List Nat}
    (hl : ∀ i ∈ l, i < s.count) :
    runCommands (l.map fun i => .getpx (BitVec.ofNat 32 i)) s =
      .next (s.withHistory (s.history ++ l.map s.readEvent)) := by
  induction l generalizing s with
  | nil => simp [runCommands]
  | cons i l ih =>
    obtain ⟨hi, hl⟩ := List.forall_mem_cons.mp hl
    have hindex : (BitVec.ofNat 32 i).toNat = i := Nat.mod_eq_of_lt (by omega)
    have hfirst : exec (.getpx (BitVec.ofNat 32 i)) s = .next (s.respond 0x08#8 .ok (s.slotValue i)) :=
      exec_getpx_of_read hs (by rwa [hindex]) (by rw [hindex]; exact State.read_of_allValued hv hi)
    have hrest := ih (s := s.respond 0x08#8 .ok (s.slotValue i)) hs hv hn hl
    rw [State.respond_history, List.append_assoc] at hrest
    rw [List.map_cons, runCommands, hfirst]
    exact hrest

theorem responses_map_readEvent (s : State) (l : List Nat) :
    responses (l.map s.readEvent) = (l.map s.slotValue).map fun v => (0x08#8, .ok, v) := by
  induction l with
  | nil => rfl
  | cons i l ih => exact congrArg (List.cons _) ih

/-- The host reads a borrowed store of an idle block in phase Ready directly (10_state.md R38). -/
theorem hostReadSlot_of_ready {s : State} (hs : s.idleIn .ready) (hb : s.backing = .borrowed) (i : Nat) :
    hostReadSlot s i = Memory.read s.pix i := by
  obtain ⟨hw, hp⟩ := hs
  simp [hostReadSlot, hw, hp, hb]

/-- Settles O30: the sweep is the run of reads over the slots in index order, and both it and the host read the slots. -/
theorem getpxSweepReadsTheStore : Obligations.GetpxSweepReadsTheStore := by
  intro s hs hv hn
  refine ⟨⟨_, runCommands_getpx hs hv hn fun i => List.mem_range.mp, ?_, rfl⟩, fun hb i hi => ?_⟩
  · rw [State.withHistory_history, responses_append, responses_map_readEvent]
    rfl
  · rw [hostReadSlot_of_ready hs hb, State.read_of_allValued hv hi, State.pixels_getElem?, if_pos hi]

/-! ## FILL -/

theorem fillEnd_eq_none {n : Nat} {first cnt : Slot} (h : cnt ≠ 0#32 ∧ 2 ^ 32 ≤ first.toNat + cnt.toNat) :
    fillEnd n first cnt = none := by
  obtain ⟨hcnt, hsum⟩ := h
  rw [fillEnd, if_neg hcnt, if_pos hsum]

theorem fillEnd_eq_some {n : Nat} {first cnt : Slot} (h : ¬ (cnt ≠ 0#32 ∧ 2 ^ 32 ≤ first.toNat + cnt.toNat)) :
    fillEnd n first cnt = some (if cnt = 0#32 then n else min (first.toNat + cnt.toNat) n) := by
  unfold fillEnd
  by_cases hcnt : cnt = 0#32
  · rw [if_pos hcnt, if_pos hcnt]
  · rw [if_neg hcnt, if_neg fun hsum => h ⟨hcnt, hsum⟩, if_neg hcnt]

theorem exec_fill_of_fillEnd_none {s : State} (hs : s.idleIn .ready) {first cnt : Slot} (color : Slot)
    (hf : fillEnd s.count first cnt = none) : exec (.fill first cnt color) s = .refused .fillOverflow := by
  refine (accept_store_ready hs _).trans ?_
  rw [hf]

theorem exec_fill_of_fillEnd_some {s : State} (hs : s.idleIn .ready) {first cnt : Slot} (color : Slot) {stop : Nat}
    (hf : fillEnd s.count first cnt = some stop) :
    exec (.fill first cnt color) s =
      .next ((s.setPix (Memory.fill s.pix first.toNat (stop - first.toNat) color)).respond 0x05#8 .ok 0#32) := by
  refine (accept_store_ready hs _).trans ?_
  rw [hf]

/-- The range of a fill by its end: empty where the end is not after the start. -/
theorem Memory.read_fill_upTo {α : Type} (m : Memory α) (first stop : Nat) (v : α) (j : Nat) :
    Memory.read (Memory.fill m first (stop - first) v) j = if first ≤ j ∧ j < stop then some v else Memory.read m j := by
  rw [Memory.read_fill]
  exact if_congr (by omega) rfl rfl

/-- Settles O25: `fill_end` refuses exactly the sums from `2^32` on, and the fill writes up to the end it gives. -/
theorem fillWritesItsRange : Obligations.FillWritesItsRange := by
  intro first cnt color s hs
  constructor
  · intro h
    exact exec_fill_of_fillEnd_none hs color (fillEnd_eq_none h)
  · intro h
    exact ⟨_, exec_fill_of_fillEnd_some hs color (fillEnd_eq_some h), rfl, Memory.read_fill_upTo _ _ _ _⟩

/-! ## INIT -/

theorem exec_init_of_unready {s : State} (hs : s.idleIn .unready) (pin bus freq : Slot) :
    exec (.init pin bus freq) s = .next (s.initialise pin bus freq) := accept_initialisation_unready hs _

/-- A failed allocation responds ERR_ALLOC and goes no further (R102). -/
theorem State.initialise_of_allocFails {s : State} (ha : s.allocated = false) (hf : s.allocAnswer 0 = some .fail)
    (pin bus freq : Slot) :
    s.initialise pin bus freq =
      (s.dropAllocAnswer.emit (.alloc s.count (some .fail))).respond 0x01#8 .errAlloc 0#32 := by
  simp only [State.initialise, State.ensureStore, State.askAllocator, ha, hf, Bool.false_eq_true, if_false]

/-- Settles O13: a failed allocation leaves the block idle in phase Unready, where INIT is accepted. -/
theorem secondInit : Obligations.SecondInit := by
  refine ⟨fun pin bus freq s hs => accept_initialisation_ready hs _, fun pin bus freq s hs ha hf => ?_⟩
  refine ⟨_, exec_init_of_unready hs pin bus freq, ?_⟩
  rw [State.initialise_of_allocFails ha hf]
  exact ⟨hs, ha, exec_init_of_unready hs⟩

/-- What is shown of the three ways INIT's transmission can end holds of INIT once both transport requests before it are
answered OK (R104). -/
theorem State.initialise_transmit_cases {s : State} (hb : s.canBack) (h0 : s.transportAnswer 0 = some .ok)
    (h1 : s.transportAnswer 1 = some .ok) (pin bus freq : Slot) (Q : State → Prop)
    (noAnswer : s.transportAnswer 2 = none →
      Q (((s.framed pin bus freq).dropTransportAnswer.emit (s.allOffEvent none)).waitFor .transmit))
    (fails : s.transportAnswer 2 = some .error →
      Q (((s.framed pin bus freq).dropTransportAnswer.emit (s.allOffEvent (some .error))).halt .transportTx))
    (done : s.transportAnswer 2 = some .ok →
      Q ((((s.framed pin bus freq).dropTransportAnswer.emit (s.allOffEvent (some .ok))).setScratch []).enterReady.respond
        0x01#8 .ok 0#32)) :
    Q (s.initialise pin bus freq) := by
  apply s.initialise_cases pin bus freq Q
  case noAlloc => intro ha hn; simp [State.canBack, ha, hn] at hb
  case allocFails => intro ha hf; simp [State.canBack, ha, hf] at hb
  case noBus => intro _ h; cases h0.symm.trans h
  case busFails => intro _ h; cases h0.symm.trans h
  case noAttach => intro _ _ h; cases h1.symm.trans h
  case attachFails => intro _ _ h; cases h1.symm.trans h
  case noTransmit => intro _ _ _; exact noAnswer
  case transmitFails => intro _ _ _; exact fails
  case done => intro _ _ _; exact done

theorem slotSymbols_zero (sym1 sym0 : Byte) : slotSymbols sym1 sym0 0#32 = List.replicate 24 sym0 := by
  simp [slotSymbols, symOf]

/-- The all-off frame of `n` slots: the marker and `24 n` low symbols (R104, 42_encoder.md R171). -/
theorem enc_replicate_zero (n : Nat) :
    enc (List.replicate n 0#32) = Config.marker :: List.replicate (24 * n) Config.sym0 := by
  rw [enc, encWith, List.flatMap_replicate, slotSymbols_zero, List.flatten_replicate_replicate, Nat.mul_comm]

@[simp] theorem transmissions_nil : transmissions [] = [] := rfl

@[simp] theorem transmissions_alloc_cons (n : Nat) (a : Option AllocAnswer) (h : List Event) :
    transmissions (.alloc n a :: h) = transmissions h := rfl
@[simp] theorem transmissions_busInit_cons (pin bus : Slot) (n : Nat) (off : Bool) (a : Option TransportAnswer)
    (h : List Event) : transmissions (.busInit pin bus n off a :: h) = transmissions h := rfl
@[simp] theorem transmissions_deviceAttach_cons (bus freq : Slot) (dma : Bool) (a : Option TransportAnswer)
    (h : List Event) : transmissions (.deviceAttach bus freq dma a :: h) = transmissions h := rfl
@[simp] theorem transmissions_resp_cons (o : Byte) (st : Status) (d : Slot) (h : List Event) :
    transmissions (.resp o st d :: h) = transmissions h := rfl
@[simp] theorem transmissions_allOffEvent_cons (s : State) (a : Option TransportAnswer) (h : List Event) :
    transmissions (s.allOffEvent a :: h) = enc (List.replicate s.count 0#32) :: transmissions h := rfl

/-! What INIT has done when its frame is in the scratch buffer, about to be sent. -/

@[simp] theorem State.framed_phase (s : State) (pin bus freq : Slot) : (s.framed pin bus freq).phase = s.phase := by
  simp [State.framed, State.readyToTransmit, State.busReady]

@[simp] theorem State.framed_pix (s : State) (pin bus freq : Slot) :
    (s.framed pin bus freq).pix = s.backed.clearStore.pix := rfl

@[simp] theorem transmissions_framed (s : State) (pin bus freq : Slot) :
    transmissions (s.framed pin bus freq).history = transmissions s.history := by
  have hbacked : transmissions s.backed.history = transmissions s.history := by
    rw [State.backed_history, transmissions_append]
    split <;> simp
  simp [State.framed, State.readyToTransmit, State.busReady, transmissions_append, hbacked]

/-- What INIT has done when it ends at its transmission: the store cleared, one all-off frame sent, and, as `sent` has it,
phase Ready entered and the response OK given, or neither (R104). -/
structure State.SentAllOff (s t : State) (sent : Prop) : Prop where
  pix : t.pix = s.backed.clearStore.pix
  transmitted : transmissions t.history = transmissions s.history ++ [enc (List.replicate s.count 0#32)]
  ready : t.phase = .ready ↔ sent
  responded : responses t.history = responses s.history ++ [(0x01#8, .ok, 0#32)] ↔ sent

/-- Phase Ready and the response OK come with the answer OK alone (R104). -/
theorem State.initialise_sentAllOff {s : State} (hs : s.idleIn .unready) (hb : s.canBack)
    (h0 : s.transportAnswer 0 = some .ok) (h1 : s.transportAnswer 1 = some .ok) (pin bus freq : Slot) :
    s.SentAllOff (s.initialise pin bus freq) (s.transportAnswer 2 = some .ok) := by
  obtain ⟨-, hp⟩ := hs
  apply State.initialise_transmit_cases hb h0 h1 pin bus freq (s.SentAllOff · _)
  case noAnswer | fails | done =>
    intro h2
    rw [h2]
    exact ⟨by simp, by simp [transmissions_append], by simp [hp], by simp [responses_append]⟩

/-- Settles O17: whatever the answer, INIT ends at its transmission with the store cleared and the all-off frame sent. -/
theorem initClearsAndSendsAllOff : Obligations.InitClearsAndSendsAllOff := by
  intro pin bus freq s hs hb h0 h1
  obtain ⟨hpix, htransmitted, hready, hresponded⟩ := State.initialise_sentAllOff hs hb h0 h1 pin bus freq
  refine ⟨_, exec_init_of_unready hs pin bus freq, fun j hj => ?_, hpix, ?_, hready, hresponded⟩
  · rw [hpix, State.read_clearStore, State.backed_count, if_pos hj]
  · rw [htransmitted, enc_replicate_zero]

/-! ## What stands in front of the history

No command reads the history (10_state.md R31): every operation on the state commutes with putting events in front of
it. -/

/-- `s` with the events `p` in front of its history. -/
def State.prepend (p : List Event) (s : State) : State := s.withHistory (p ++ s.history)

/-- The update `f` neither reads the history nor does more to it than append. -/
def IgnoresHistory (f : State → State) : Prop := ∀ (p : List Event) (s : State), f (s.prepend p) = (f s).prepend p

theorem IgnoresHistory.comp {f g : State → State} (hf : IgnoresHistory f) (hg : IgnoresHistory g) :
    IgnoresHistory fun s => f (g s) := fun p s => (congrArg f (hg p s)).trans (hf p (g s))

section
variable (p : List Event) (s : State)

theorem State.withHistory_eq_prepend (h : List Event) : s.withHistory h = (s.withHistory []).prepend h := by
  simp [State.prepend]

@[simp] theorem State.prepend_waiting : (s.prepend p).waiting = s.waiting := rfl
@[simp] theorem State.prepend_phase : (s.prepend p).phase = s.phase := rfl
@[simp] theorem State.prepend_fault : (s.prepend p).fault = s.fault := rfl
@[simp] theorem State.prepend_allocated : (s.prepend p).allocated = s.allocated := rfl
@[simp] theorem State.prepend_count : (s.prepend p).count = s.count := rfl
@[simp] theorem State.prepend_pix : (s.prepend p).pix = s.pix := rfl
@[simp] theorem State.prepend_allocAnswers : (s.prepend p).allocAnswers = s.allocAnswers := rfl
@[simp] theorem State.prepend_transportAnswers : (s.prepend p).transportAnswers = s.transportAnswers := rfl
@[simp] theorem State.prepend_inStore (index : Slot) : (s.prepend p).inStore index = s.inStore index := rfl
@[simp] theorem State.prepend_firstUnvalued : (s.prepend p).firstUnvalued = s.firstUnvalued := rfl

theorem State.emit_prepend (e : Event) : (s.prepend p).emit e = (s.emit e).prepend p :=
  congrArg s.withHistory (List.append_assoc ..)
theorem State.dropAllocAnswer_prepend : (s.prepend p).dropAllocAnswer = s.dropAllocAnswer.prepend p := rfl
theorem State.dropTransportAnswer_prepend : (s.prepend p).dropTransportAnswer = s.dropTransportAnswer.prepend p := rfl

end

theorem ignoresHistory_respond (opc : Byte) (st : Status) (d : Slot) : IgnoresHistory fun s => s.respond opc st d :=
  fun p s => s.emit_prepend p _
theorem ignoresHistory_clearStore : IgnoresHistory State.clearStore := fun _ _ => rfl
theorem ignoresHistory_attach : IgnoresHistory State.attach := fun _ _ => rfl
theorem ignoresHistory_enterReady : IgnoresHistory State.enterReady := fun _ _ => rfl
theorem ignoresHistory_backStore : IgnoresHistory State.backStore := fun _ _ => rfl
theorem ignoresHistory_setScratch (m : List Host.Cell) : IgnoresHistory fun s => s.setScratch m := fun _ _ => rfl

theorem ignoresHistory_writeSlot (opc : Byte) (index color : Slot) :
    IgnoresHistory fun s => s.writeSlot opc index color := by
  intro p s
  dsimp only
  rw [State.writeSlot, State.writeSlot, State.prepend_inStore]
  split
  · exact ignoresHistory_respond opc .ok 0#32 p (s.setPix _)
  · exact ignoresHistory_respond opc .errBounds 0#32 p s

theorem ignoresHistory_askAllocator {onFail onOk : State → State} (hfail : IgnoresHistory onFail)
    (hok : IgnoresHistory onOk) : IgnoresHistory fun s => s.askAllocator onFail onOk := by
  intro p s
  simp only [State.askAllocator, State.allocAnswer_eq, State.prepend_allocAnswers, State.prepend_count,
    State.dropAllocAnswer_prepend, State.emit_prepend]
  cases drawAt s.allocAnswers 0 with
  | none => rfl
  | some a =>
    cases a with
    | fail => exact hfail p _
    | ok => exact hok p _

theorem ignoresHistory_askTransport (q : Request) (r : FaultReason) (ev : Option TransportAnswer → Event)
    {onOk : State → State} (hok : IgnoresHistory onOk) : IgnoresHistory fun s => s.askTransport q r ev onOk := by
  intro p s
  simp only [State.askTransport, State.transportAnswer_eq, State.prepend_transportAnswers,
    State.dropTransportAnswer_prepend, State.emit_prepend]
  cases drawAt s.transportAnswers 0 with
  | none => rfl
  | some a =>
    cases a with
    | error => rfl
    | ok => exact hok p _

theorem ignoresHistory_transmit {onOk : State → State} (hok : IgnoresHistory onOk) :
    IgnoresHistory fun s => s.transmit onOk := fun p s =>
  ignoresHistory_askTransport _ _ _ (hok.comp (ignoresHistory_setScratch [])) p
    (s.setScratch (Memory.writeFrom s.scratch 0 (enc s.pixels)))

theorem ignoresHistory_bringUp : IgnoresHistory State.bringUp :=
  (ignoresHistory_transmit ((ignoresHistory_respond _ _ _).comp ignoresHistory_enterReady)).comp ignoresHistory_clearStore

theorem ignoresHistory_configure (pin bus freq : Slot) : IgnoresHistory fun s => s.configure pin bus freq :=
  fun p s => ignoresHistory_askTransport _ _ _
    (ignoresHistory_askTransport _ _ _ (ignoresHistory_bringUp.comp ignoresHistory_attach)) p (s.setConfig pin bus freq)

theorem ignoresHistory_ensureStore {onOk : State → State} (hok : IgnoresHistory onOk) :
    IgnoresHistory fun s => s.ensureStore onOk := by
  intro p s
  dsimp only
  rw [State.ensureStore, State.ensureStore, State.prepend_allocated]
  split
  · exact hok p s
  · exact ignoresHistory_askAllocator (ignoresHistory_respond _ _ _) (hok.comp ignoresHistory_backStore) p s

theorem ignoresHistory_initialise (pin bus freq : Slot) : IgnoresHistory fun s => s.initialise pin bus freq :=
  ignoresHistory_ensureStore (ignoresHistory_configure pin bus freq)

/-- Acceptance reads no history: if the command's body commutes with what stands in front of it, the whole does. -/
theorem accept_prepend (c : CommandClass) (p : List Event) (s : State) {b b' : Host.Outcome State Fault Refusal}
    (hb : b' = mapNext (State.prepend p) b) :
    accept c (s.prepend p) b' = mapNext (State.prepend p) (accept c s b) := by
  subst hb
  simp only [accept, State.prepend_waiting, State.prepend_phase, State.prepend_fault]
  cases s.waiting with
  | some q => rfl
  | none => cases s.phase <;> cases c <;> rfl

theorem accept_next_prepend (c : CommandClass) {f : State → State} (hf : IgnoresHistory f) (p : List Event) (s : State) :
    accept c (s.prepend p) (.next (f (s.prepend p))) = mapNext (State.prepend p) (accept c s (.next (f s))) :=
  accept_prepend c p s (congrArg Host.Outcome.next (hf p s))

/-- No command reads the history (10_state.md R31). -/
theorem exec_prepend (i : Instr) (p : List Event) (s : State) :
    exec i (s.prepend p) = mapNext (State.prepend p) (exec i s) := by
  cases i with
  | init pin bus freq => exact accept_next_prepend _ (ignoresHistory_initialise pin bus freq) p s
  | setpx index color => exact accept_next_prepend _ (ignoresHistory_writeSlot _ _ _) p s
  | setrgb index r g b => exact accept_next_prepend _ (ignoresHistory_writeSlot _ _ _) p s
  | sethsv index hue sat val => exact accept_next_prepend _ (ignoresHistory_writeSlot _ _ _) p s
  | fill first cnt color =>
    refine accept_prepend _ p s ?_
    rw [State.prepend_count, State.prepend_pix]
    cases fillEnd s.count first cnt with
    | none => rfl
    | some stop => exact congrArg Host.Outcome.next (ignoresHistory_respond 0x05#8 .ok 0#32 p (s.setPix _))
  | clear => exact accept_next_prepend _ ((ignoresHistory_respond _ _ _).comp ignoresHistory_clearStore) p s
  | showFrame =>
    refine accept_prepend _ p s ?_
    rw [State.prepend_firstUnvalued]
    cases s.firstUnvalued with
    | none => exact congrArg Host.Outcome.next (ignoresHistory_transmit (ignoresHistory_respond _ _ _) p s)
    | some i => rfl
  | getpx index =>
    refine accept_prepend _ p s ?_
    rw [State.prepend_inStore, State.prepend_pix]
    split
    · cases Memory.read s.pix index.toNat with
      | none => rfl
      | some v => exact congrArg Host.Outcome.next (ignoresHistory_respond 0x08#8 .ok v p s)
    · rfl
  | rgb2pk r g b => exact accept_next_prepend _ (ignoresHistory_respond _ _ _) p s
  | hsv2pk hue sat val => exact accept_next_prepend _ (ignoresHistory_respond _ _ _) p s

/-! ## An index beyond the store -/

/-- With another history a command has the outcome it would have had, what it appends after that history (R31). -/
theorem exec_withHistory (i : Instr) (s : State) (h : List Event) :
    exec i (s.withHistory h) =
      mapNext (fun u => u.withHistory (h ++ u.history.drop s.history.length)) (exec i s) := by
  conv => rhs; rw [← s.withHistory_self, s.withHistory_eq_prepend, exec_prepend]
  rw [s.withHistory_eq_prepend, exec_prepend]
  cases exec i (s.withHistory []) with
  | next t => simp [mapNext, State.prepend]
  | fault r => rfl
  | refused r => rfl

theorem State.writeSlot_of_beyond {s : State} {index : Slot} (hi : s.count ≤ index.toNat) (opc : Byte) (color : Slot) :
    s.writeSlot opc index color = s.respond opc .errBounds 0#32 := by
  rw [State.writeSlot_eq, if_neg (by omega)]

/-- Settles O24: the refused write only responds, and a command does not read the history. -/
theorem boundsViolationIsANoOp : Obligations.BoundsViolationIsANoOp := by
  intro i index s hs hi hcommand
  refine ⟨_, ?_, rfl, fun j => exec_withHistory j s _⟩
  have hresponds (opc : Byte) (color : Slot) :
      accept .store s (.next (s.writeSlot opc index color)) = .next (s.respond opc .errBounds 0#32) := by
    rw [accept_store_ready hs, State.writeSlot_of_beyond hi]
  obtain ⟨color, rfl⟩ | ⟨r, g, b, rfl⟩ | ⟨hue, sat, val, rfl⟩ := hcommand
  · exact hresponds 0x02#8 color
  · exact hresponds 0x03#8 (pack r g b)
  · exact hresponds 0x04#8 (hsvToPacked hue sat val)

end Sys2Proof.Machine

/-! Proofs: a packed color is green, red and blue under a zero top byte, and so the packed colors are exactly the slot
values with a zero top byte; the sector of every hue (spec 41_color_conversion.md R140, R142, R143). -/

namespace Sys2Proof.Machine

/-! ## A slot value as its four bytes -/

/-- Slot values are equal when their four bytes are. -/
theorem slot_eq_of_bytes {c d : Slot} (htop : c.extractLsb' 24 8 = d.extractLsb' 24 8) (hgreen : greenOf c = greenOf d)
    (hred : redOf c = redOf d) (hblue : blueOf c = blueOf d) : c = d := by
  have hbytes (v : Slot) : v.extractLsb' 24 8 ++ (greenOf v ++ (redOf v ++ blueOf v)) = v := by
    have h16 : redOf v ++ blueOf v = v.extractLsb' 0 16 := BitVec.extractLsb'_append_extractLsb'_eq_extractLsb' rfl
    have h24 : greenOf v ++ v.extractLsb' 0 16 = v.extractLsb' 0 24 :=
      BitVec.extractLsb'_append_extractLsb'_eq_extractLsb' rfl
    have h32 : v.extractLsb' 24 8 ++ v.extractLsb' 0 24 = v.extractLsb' 0 32 :=
      BitVec.extractLsb'_append_extractLsb'_eq_extractLsb' rfl
    rw [h16, h24, h32, BitVec.extractLsb'_eq_self]
  rw [← hbytes c, ← hbytes d, htop, hgreen, hred, hblue]

/-- The mask of R142 clears the top byte and keeps the three below it. -/
theorem bytes_and_colorMask (c : Slot) :
    (c &&& 0x00FFFFFF#32).extractLsb' 24 8 = 0#8 ∧ greenOf (c &&& 0x00FFFFFF#32) = greenOf c ∧
      redOf (c &&& 0x00FFFFFF#32) = redOf c ∧ blueOf (c &&& 0x00FFFFFF#32) = blueOf c := by
  simp only [greenOf, redOf, blueOf, BitVec.extractLsb'_and]
  rw [show (0x00FFFFFF#32).extractLsb' 24 8 = 0#8 by decide,
    show (0x00FFFFFF#32).extractLsb' 16 8 = BitVec.allOnes 8 by decide,
    show (0x00FFFFFF#32).extractLsb' 8 8 = BitVec.allOnes 8 by decide,
    show (0x00FFFFFF#32).extractLsb' 0 8 = BitVec.allOnes 8 by decide]
  simp only [BitVec.and_zero, BitVec.and_allOnes, and_self]

/-! ## Packing -/

/-- Packing puts green, red and blue in the order of the three components of a command word (R77, R140). -/
theorem pack_eq_componentsWord (r g b : Byte) : pack r g b = componentsWord g r b := by
  have hbyte (x : Byte) (k : Nat) : 8 ≤ k → x.getLsbD k = false := BitVec.getLsbD_of_ge x k
  apply BitVec.eq_of_getLsbD_eq
  intro i hi
  simp only [pack, getLsbD_componentsWord, BitVec.getLsbD_or, BitVec.getLsbD_shiftLeft, BitVec.getLsbD_setWidth]
  split_ifs with h8 h16 h24
  · simp [hi, h8, show i < 16 by omega]
  · simp [hi, h8, h16, hbyte b i (by omega), show i - 8 < 32 by omega]
  · simp [hi, h8, h16, hbyte b i (by omega), hbyte r (i - 8) (by omega), show i - 16 < 32 by omega]
  · simp [hbyte b i (by omega), hbyte r (i - 8) (by omega), hbyte g (i - 16) (by omega)]

/-- A packed color as a number (R140). -/
theorem pack_toNat (r g b : Byte) : (pack r g b).toNat = (g.toNat <<< 16) ||| (r.toNat <<< 8) ||| b.toNat := by
  calc (pack r g b).toNat = (0#8 ++ (g ++ (r ++ b))).toNat := congrArg BitVec.toNat (pack_eq_componentsWord r g b)
    _ = (g.toNat <<< 16) ||| (r.toNat <<< 8) ||| b.toNat := by
      simp only [BitVec.toNat_append, BitVec.toNat_zero, Nat.zero_shiftLeft, Nat.zero_or, Nat.or_assoc]

/-- Each component is read back from its own byte of the packed color, and the top byte is zero (R140, R142). -/
theorem bytes_pack (r g b : Byte) :
    (pack r g b).extractLsb' 24 8 = 0#8 ∧ greenOf (pack r g b) = g ∧ redOf (pack r g b) = r ∧
      blueOf (pack r g b) = b := by
  rw [pack_eq_componentsWord]
  exact componentsWord_fields g r b

/-- A triple packs to a slot value exactly when that value has a zero top byte and these three components (R142). -/
theorem pack_eq_iff {r g b : Byte} {c : Slot} :
    pack r g b = c ↔ c.extractLsb' 24 8 = 0#8 ∧ greenOf c = g ∧ redOf c = r ∧ blueOf c = b := by
  constructor
  · rintro rfl
    exact bytes_pack r g b
  · rintro ⟨htop, rfl, rfl, rfl⟩
    obtain ⟨hptop, hpg, hpr, hpb⟩ := bytes_pack (redOf c) (greenOf c) (blueOf c)
    exact slot_eq_of_bytes (hptop.trans htop.symm) hpg hpr hpb

/-- Packing the components of a slot value masks it: the masked value has these components (R142). -/
theorem pack_components (c : Slot) : pack (redOf c) (greenOf c) (blueOf c) = c &&& 0x00FFFFFF#32 :=
  pack_eq_iff.mpr (bytes_and_colorMask c)

/-- Settles O33: a packed color is green, red and blue appended behind a zero byte, and its number and its bytes are
those of the appended word. -/
theorem packedColorLayout : Obligations.PackedColorLayout :=
  fun r g b => ⟨pack_toNat r g b, bytes_pack r g b⟩

/-- Settles O34: a triple packs to exactly the slot value with a zero top byte and the triple's bytes, so it is read
back from that value, and every value with a zero top byte is packed from its own components. -/
theorem packUnpack : Obligations.PackUnpack := by
  refine ⟨pack_components, fun r g b r' g' b' h => ?_, fun c => ⟨?_, fun htop => ?_⟩⟩
  · obtain ⟨-, hg, hr, hb⟩ := pack_eq_iff.mp h
    obtain ⟨-, hg', hr', hb'⟩ := bytes_pack r' g' b'
    exact ⟨hr.symm.trans hr', hg.symm.trans hg', hb.symm.trans hb'⟩
  · rintro ⟨r, g, b, h⟩
    exact (pack_eq_iff.mp h).1
  · exact ⟨redOf c, greenOf c, blueOf c, pack_eq_iff.mpr ⟨htop, rfl, rfl, rfl⟩⟩

/-! ## The sector of a hue -/

/-- The sector of a hue is its region (R143): no hue is past region 5. -/
theorem sector_eq_region (hue : Byte) : sector hue = region hue := by
  have hlt := hue.isLt
  unfold sector region
  split
  · rfl
  · omega

/-- Settles O37: a hue is in the region whose first hue, a multiple of 43, is the last not above it. -/
theorem hueSectors : Obligations.HueSectors := by
  intro hue
  refine ⟨rfl, ?_⟩
  have hlt := hue.isLt
  rw [sector_eq_region, region]
  split_ifs <;> omega

end Sys2Proof.Machine

/-! Proofs: every byte of the encoding (spec 42_encoder.md R171), and the transmission of SHOW and of INIT: one request
for the whole store whatever the answer (R175), and a fault and no response where the answer is ERROR (R176). -/

namespace Sys2Proof.Machine

/-! ## The bytes of the encoding -/

/-- Past the marker, every slot takes 24 bytes, so those of slot `i` begin at `24 i` (R171). -/
theorem flatMap_slotSymbols_getElem? (sym1 sym0 : Byte) {ps : List Slot} {i j : Nat} {p : Slot} (hi : ps[i]? = some p)
    (hj : j < 24) : (ps.flatMap (slotSymbols sym1 sym0))[24 * i + j]? = (slotSymbols sym1 sym0 p)[j]? := by
  induction ps generalizing i with
  | nil => simp at hi
  | cons q ps ih =>
    rw [List.flatMap_cons]
    cases i with
    | zero =>
      obtain rfl : q = p := by simpa using hi
      rw [Nat.mul_zero, Nat.zero_add, List.getElem?_append_left (by simpa using hj)]
    | succ i =>
      have hrest : 24 * (i + 1) + j - 24 = 24 * i + j := by omega
      rw [List.getElem?_append_right (by rw [slotSymbols_length]; omega), slotSymbols_length, hrest]
      exact ih (by simpa using hi)

/-- Settles O39: the marker, then the symbols of each slot. -/
theorem encodingFormula : Obligations.EncodingFormula := by
  refine fun ps => ⟨enc_length ps, rfl, fun i j p hi hj => ?_⟩
  have hbyte : (enc ps)[1 + 24 * i + j]? = (ps.flatMap (slotSymbols Config.sym1 Config.sym0))[24 * i + j]? := by
    rw [show 1 + 24 * i + j = 24 * i + j + 1 by omega]
    rfl
  rw [hbyte, flatMap_slotSymbols_getElem? _ _ hi hj, slotSymbols_getElem?, if_pos hj, symOf]

/-! ## A transmission answered ERROR -/

/-- SHOW of a store whose slots all hold a value is its transmission (R173). -/
theorem exec_showFrame_of_allValued {s : State} (hs : s.idleIn .ready) (hv : s.allValued) :
    exec .showFrame s = .next (s.transmit fun t => t.respond 0x07#8 .ok 0#32) := by
  refine (accept_store_ready hs _).trans ?_
  rw [State.firstUnvalued_eq_none.mpr hv]

/-- SHOW answered ERROR is a fault once its one request is made (R176). -/
theorem State.show_of_error {s : State} (h : s.transportAnswer 0 = some .error) :
    (s.transmit fun t => t.respond 0x07#8 .ok 0#32) =
      (s.showFramed.dropTransportAnswer.emit (s.showEvent (some .error))).halt .transportTx := by
  apply s.show_cases (· = _)
  case noAnswer | done => intro h'; cases h.symm.trans h'
  case fails => intro _; rfl

/-- INIT whose transmission is answered ERROR is a fault once its one request is made (R104, R176). -/
theorem State.initialise_of_transmit_error {s : State} (hb : s.canBack) (h0 : s.transportAnswer 0 = some .ok)
    (h1 : s.transportAnswer 1 = some .ok) (h2 : s.transportAnswer 2 = some .error) (pin bus freq : Slot) :
    s.initialise pin bus freq =
      ((s.framed pin bus freq).dropTransportAnswer.emit (s.allOffEvent (some .error))).halt .transportTx := by
  apply State.initialise_transmit_cases hb h0 h1 pin bus freq (· = _)
  case noAnswer | done => intro h'; cases h2.symm.trans h'
  case fails => intro _; rfl

@[simp] theorem transmissions_showEvent_cons (s : State) (a : Option TransportAnswer) (h : List Event) :
    transmissions (s.showEvent a :: h) = enc s.pixels :: transmissions h := rfl

@[simp] theorem State.showFramed_pix (s : State) : s.showFramed.pix = s.pix := rfl

@[simp] theorem State.showFramed_transportAnswers (s : State) :
    s.showFramed.transportAnswers = s.transportAnswers := rfl

/-- Settles O42: the request is the last event, and the fault adds none. -/
theorem transmitErrorIsAFault : Obligations.TransmitErrorIsAFault := by
  constructor
  · intro s hs hv h0
    refine ⟨_, exec_showFrame_of_allValued hs hv, ?_⟩
    rw [State.show_of_error h0]
    simp [responses_append, transmissions_append]
  · intro pin bus freq s hs hb h0 h1 h2
    refine ⟨_, exec_init_of_unready hs pin bus freq, ?_⟩
    rw [State.initialise_of_transmit_error hb h0 h1 h2]
    simp [responses_append, transmissions_append]

/-! ## One whole transfer -/

/-- However SHOW ends, it has made one request, for its store (R175). -/
theorem State.show_transmitted (s : State) :
    transmissions (s.transmit fun t => t.respond 0x07#8 .ok 0#32).history =
      transmissions s.history ++ [enc s.pixels] := by
  apply s.show_cases fun t => transmissions t.history = transmissions s.history ++ [enc s.pixels]
  case noAnswer | fails | done => intro _; simp [transmissions_append]

/-- However SHOW ends, it has taken one draw of the transport (R174). -/
theorem State.show_drawn (s : State) :
    (s.transmit fun t => t.respond 0x07#8 .ok 0#32).transportAnswers = s.transportAnswers.tail := by
  apply s.show_cases fun t => t.transportAnswers = s.transportAnswers.tail
  case noAnswer | fails | done => intro _; simp

@[simp] theorem State.framed_transportAnswers (s : State) (pin bus freq : Slot) :
    (s.framed pin bus freq).transportAnswers = s.transportAnswers.drop 2 := by
  simp [State.framed, State.readyToTransmit, State.busReady, ← List.drop_one]

@[simp] theorem State.framed_count (s : State) (pin bus freq : Slot) : (s.framed pin bus freq).count = s.count := by
  simp [State.framed, State.readyToTransmit, State.busReady]

/-- However INIT's transmission ends, its three requests have each taken one draw of the transport (R103, R174). -/
theorem State.initialise_drawn {s : State} (hb : s.canBack) (h0 : s.transportAnswer 0 = some .ok)
    (h1 : s.transportAnswer 1 = some .ok) (pin bus freq : Slot) :
    (s.initialise pin bus freq).transportAnswers = s.transportAnswers.drop 3 := by
  apply State.initialise_transmit_cases hb h0 h1 pin bus freq fun t => t.transportAnswers = s.transportAnswers.drop 3
  case noAnswer | fails | done => intro _; simp

@[simp] theorem State.initialise_count (s : State) (pin bus freq : Slot) :
    (s.initialise pin bus freq).count = s.count := by
  apply s.initialise_cases pin bus freq fun t => t.count = s.count
  all_goals intros; simp [State.busReady]

/-- Settles O44: however SHOW or INIT ends, it has made one request, and for INIT that is of the store it leaves. -/
theorem oneWholeTransferNoRetry : Obligations.OneWholeTransferNoRetry := by
  constructor
  · intro s hs hv
    exact ⟨_, exec_showFrame_of_allValued hs hv, s.show_transmitted, s.show_drawn⟩
  · intro pin bus freq s hs hb h0 h1
    obtain ⟨hpix, htransmitted, -, -⟩ := State.initialise_sentAllOff hs hb h0 h1 pin bus freq
    have hcount : (s.initialise pin bus freq).count = s.backed.clearStore.count := by simp
    have hpixels : (s.initialise pin bus freq).pixels = List.replicate s.count 0#32 := by
      rw [State.pixels_congr hcount hpix, State.pixels_clearStore, State.backed_count]
    refine ⟨_, exec_init_of_unready hs pin bus freq, ?_, State.initialise_drawn hb h0 h1 pin bus freq⟩
    rw [htransmitted, hpixels]

end Sys2Proof.Machine

/-! Proofs: a command and its word determine each other (spec 30_encoding.md R70 to R78), and the words the assembler's
forms give (R90, R91). -/

namespace Sys2Proof

open Laws.EncodeFields (opcOf_commandWord rsvdOf_commandWord)

/-! ## Decoding an encoded command -/

/-- The top byte and the three components of a built word whose slot C holds components (R74, R77). -/
theorem components_commandWord (o : Byte) (a b : Slot) (x y z : Byte) :
    topOfC (commandWord o a b (componentsWord x y z)) = 0#8 ∧
      component1 (commandWord o a b (componentsWord x y z)) = x ∧
      component2 (commandWord o a b (componentsWord x y z)) = y ∧
      component3 (commandWord o a b (componentsWord x y z)) = z := by
  obtain ⟨htop, h1, h2, h3⟩ := fields_of_slotC (commandWord o a b (componentsWord x y z))
  rw [htop, h1, h2, h3, slotC_commandWord]
  exact componentsWord_fields x y z

/-- Settles O2: the decoder takes the branch of the opcode the encoder wrote, and there reads every field of the
command, the unused ones zero. -/
theorem decodeEncodeRoundTrip : Obligations.DecodeEncodeRoundTrip := by
  intro i
  cases i with
  | init | setpx | fill | clear | showFrame | getpx =>
    simp [decode, decodeOpcode, encode, whenZero, opcOf_commandWord, rsvdOf_commandWord, slotA_commandWord,
      slotB_commandWord, slotC_commandWord]
  | setrgb | sethsv | rgb2pk | hsv2pk =>
    simp [decode, decodeOpcode, encode, whenZero, opcOf_commandWord, rsvdOf_commandWord, slotA_commandWord,
      slotB_commandWord, components_commandWord]

/-! ## Encoding a decoded command -/

/-- A word with a zero RSVD is the one built from parts that equal its fields. -/
theorem commandWord_eq_of_fields {w : CommandWord} {o : Byte} {a b c : Slot} (hr : rsvdOf w = 0#24)
    (ho : opcOf w = o) (ha : slotA w = a) (hb : slotB w = b) (hc : slotC w = c) : commandWord o a b c = w :=
  ((eq_commandWord_iff w o a b c).mpr ⟨ho, hr, ha, hb, hc⟩).symm

/-- Settles O3: the decoder's branch for the command fixes the opcode and the unused fields of the word and copies the
others into the command, so the encoder builds the word from the word's own parts. -/
theorem encodeDecodeRoundTrip : Obligations.EncodeDecodeRoundTrip := by
  intro w i h
  obtain ⟨hr, hd⟩ := decode_eq_ok_iff.mp h
  have ho : opcOf w = opcode i := (opcode_of_decodeOpcode hd).symm
  rw [decodeOpcode, ho] at hd
  cases i <;> simp only [opcode, BitVec.reduceEq, reduceIte, whenZero_eq_ok_iff, Bool.and_eq_true, beq_iff_eq] at hd
  case init | fill =>
    cases hd
    exact commandWord_eq_of_fields hr ho rfl rfl rfl
  case setpx =>
    obtain ⟨hb, ⟨⟩⟩ := hd
    exact commandWord_eq_of_fields hr ho rfl hb rfl
  case clear | showFrame =>
    obtain ⟨⟨⟨ha, hb⟩, hc⟩, -⟩ := hd
    exact commandWord_eq_of_fields hr ho ha hb hc
  case getpx =>
    obtain ⟨⟨hb, hc⟩, ⟨⟩⟩ := hd
    exact commandWord_eq_of_fields hr ho rfl hb hc
  case setrgb | sethsv =>
    obtain ⟨⟨hb, ht⟩, ⟨⟩⟩ := hd
    exact commandWord_eq_of_fields hr ho rfl hb (componentsWord_of_parts w ht).symm
  case rgb2pk | hsv2pk =>
    obtain ⟨⟨⟨ha, hb⟩, ht⟩, ⟨⟩⟩ := hd
    exact commandWord_eq_of_fields hr ho ha hb (componentsWord_of_parts w ht).symm

/-- Settles O1: each word is decoded by evaluation. -/
theorem specWordsDecode : Obligations.SpecWordsDecode := by
  unfold Obligations.SpecWordsDecode
  decide

/-! ## Words as numbers -/

/-- A built word is the number of its parts (R70). -/
theorem commandWord_eq_ofNat (o : Byte) (a b c : Slot) :
    commandWord o a b c =
      BitVec.ofNat 128 (o.toNat * 2 ^ 120 + a.toNat * 2 ^ 64 + b.toNat * 2 ^ 32 + c.toNat) := by
  rw [← commandWord_toNat, BitVec.ofNat_toNat, BitVec.setWidth_eq]

/-- Three components in slot C as a number (R77). -/
theorem componentsWord_toNat (x y z : Byte) :
    (componentsWord x y z).toNat = x.toNat * 2 ^ 16 + y.toNat * 2 ^ 8 + z.toNat := by
  have happend {m n : Nat} (u : BitVec m) (v : BitVec n) : (u ++ v).toNat = u.toNat * 2 ^ n + v.toNat := by
    rw [BitVec.toNat_append, ← Nat.shiftLeft_add_eq_or_of_lt v.isLt, Nat.shiftLeft_eq]
  simp only [componentsWord, happend, BitVec.toNat_zero]
  omega

end Sys2Proof

namespace Sys2Proof.Machine

/-! ## The assembler -/

/-- A slot operand goes on with its value where it fits its field, and rejects the line where it does not (R90). -/
theorem slotOperand_bind {β : Type} (n : Nat) (k : Slot → Option β) :
    (slotOperand n).bind k = if n < 2 ^ 32 then k (BitVec.ofNat 32 n) else none := by
  unfold slotOperand
  split <;> rfl

/-- A component operand goes on with its value where it fits its field, and rejects the line where it does not (R90). -/
theorem byteOperand_bind {β : Type} (n : Nat) (k : Byte → Option β) :
    (byteOperand n).bind k = if n < 2 ^ 8 then k (BitVec.ofNat 8 n) else none := by
  unfold byteOperand
  split <;> rfl

/-- Settles O60: a line is rejected at the first operand that does not fit; where all fit, each is the number in its
field, and the word is the sum of its fields. -/
theorem assembledWords : Obligations.AssembledWords := by
  refine ⟨fun pin bus freq => ?_, fun index color => ?_, fun index r g b => ?_, fun index hue sat val => ?_,
    fun color first cnt => ?_, ?_, ?_, fun index => ?_, fun r g b => ?_, fun hue sat val => ?_⟩
  case refine_6 | refine_7 => simp [assembleWord, assemble, expand, assembleCore, encode, commandWord_eq_ofNat]
  all_goals
    simp only [assembleWord, assemble, expand, assembleCore, Option.bind_eq_bind, slotOperand_bind, byteOperand_bind,
      ite_and, Option.pure_def]
    split_ifs
  all_goals
    simp_all [encode, commandWord_eq_ofNat, componentsWord_toNat, Nat.mod_eq_of_lt, ← add_assoc]

/-- `FILL 0, 0, 0` and `CLEAR` differ in their opcodes. -/
theorem encode_fill_ne_encode_clear (first cnt color : Slot) : encode (.fill first cnt color) ≠ encode .clear := by
  intro h
  have hopc := congrArg opcOf h
  simp [encode, Laws.EncodeFields.opcOf_commandWord] at hopc

/-- Settles O59: a pseudo-instruction assembles through its expansion, and words of different opcodes differ. -/
theorem pseudoInstructions : Obligations.PseudoInstructions :=
  ⟨fun _ _ => rfl, fun _ => rfl, fun _ _ => rfl, rfl, fun _ _ _ _ => rfl,
    fun h => encode_fill_ne_encode_clear 0 0 0 (Option.some.inj h)⟩

end Sys2Proof.Machine

/-! Proofs: the invariant of the machine (spec 10_state.md, 20_memory.md, 42_encoder.md). Each operation on the state
has one lemma that says when it keeps the invariant; every way a step can end is a composition of them. -/

namespace Sys2Proof.Machine

/-! ## The operations that keep the invariant -/

/-! The requests have the form of their rules (40_pixel_store.md R102, R103). -/

theorem Event.wellFormed_alloc (n : Nat) (a : Option AllocAnswer) : (Event.alloc n a).wellFormed n := rfl

theorem Event.wellFormed_busInit (n : Nat) (pin bus : Slot) (a : Option TransportAnswer) :
    (Event.busInit pin bus Config.maxTransferBytes true a).wellFormed n := ⟨rfl, rfl⟩

theorem Event.wellFormed_deviceAttach (n : Nat) (bus freq : Slot) (a : Option TransportAnswer) :
    (Event.deviceAttach bus freq true a).wellFormed n := rfl

section
variable {s : State}

theorem State.Inv.dropHostMove (h : s.Inv) : s.dropHostMove.Inv := { h with }

theorem State.Inv.dropAllocAnswer (h : s.Inv) : s.dropAllocAnswer.Inv := { h with }

theorem State.Inv.dropTransportAnswer (h : s.Inv) : s.dropTransportAnswer.Inv := { h with }

theorem State.Inv.emit (h : s.Inv) {e : Event} (he : e.wellFormed s.count) : (s.emit e).Inv :=
  { h with historyWf := List.forall_mem_append.mpr ⟨h.historyWf, List.forall_mem_singleton.mpr he⟩ }

theorem State.Inv.respond (h : s.Inv) {opc : Byte} {st : Status} {d : Slot}
    (he : (Event.resp opc st d).wellFormed s.count) : (s.respond opc st d).Inv := h.emit he

/-- A response OK with a zero data word has the form of every command (30_encoding.md R80, R81). -/
theorem State.Inv.respondOk (h : s.Inv) (opc : Byte) : (s.respond opc .ok 0#32).Inv :=
  h.respond (by simp [Event.wellFormed])

theorem State.Inv.halt (h : s.Inv) (hw : s.waiting = none) (r : FaultReason) : (s.halt r).Inv :=
  { h with
    faultIffHalted := by simp
    haltedNotWaiting := fun _ => hw
    readyComplete := nofun
    idleScratch := by simp }

/-- Waiting for any answer but a transmission's (60_exceptions.md R205). -/
theorem State.Inv.waitFor (h : s.Inv) (hp : s.phase ≠ .halted) {q : Request} (hq : q ≠ .transmit) :
    (s.waitFor q).Inv :=
  { h with
    haltedNotWaiting := fun h => absurd h hp
    idleScratch := nofun
    pendingFrame := fun h => absurd (Option.some.inj h) hq }

theorem State.Inv.setConfig (h : s.Inv) (pin bus freq : Slot) : (s.setConfig pin bus freq).Inv :=
  { h with
    readyComplete := fun hp => by
      obtain ⟨ha, hh, -, -, -, hv⟩ := h.readyComplete hp
      exact ⟨ha, hh, rfl, rfl, rfl, hv⟩ }

theorem State.Inv.attach (h : s.Inv) : s.attach.Inv :=
  { h with
    readyComplete := fun hp => by
      obtain ⟨ha, -, hpin, hbus, hfreq, hv⟩ := h.readyComplete hp
      exact ⟨ha, rfl, hpin, hbus, hfreq, hv⟩
    pendingFrame := fun hw => ⟨rfl, (h.pendingFrame hw).2⟩ }

/-- A fresh allocation is of an owned store (40_pixel_store.md R102; 10_state.md R24). -/
theorem State.Inv.backStore (h : s.Inv) (ha : s.allocated = false) (hs : s.idleIn .unready) : s.backStore.Inv := by
  obtain ⟨hw, hp⟩ := hs
  exact
    { h with
      pixWf := List.Pairwise.nil
      pixBelow := nofun
      borrowedBacked := fun hb => by simp [h.borrowedBacked hb] at ha
      unbackedEmpty := fun _ => rfl
      readyComplete := fun hp' => by simp [hp] at hp'
      pendingFrame := fun hw' => by simp [hw] at hw' }

/-- A new content of a backed store, in canonical form, in bounds and with no value lost. -/
theorem State.Inv.setPix (h : s.Inv) (hw : s.waiting = none) (ha : s.allocated = true) {m : Memory Slot}
    (hwf : Memory.wf m) (hbelow : Memory.below m s.count)
    (hkeeps : ∀ i, (Memory.read s.pix i).isSome = true → (Memory.read m i).isSome = true) : (s.setPix m).Inv :=
  { h with
    pixWf := hwf
    pixBelow := hbelow
    borrowedBacked := fun hb => ⟨ha, fun i hi => hkeeps i ((h.borrowedBacked hb).2 i hi)⟩
    unbackedEmpty := fun ha' => by simp [ha] at ha'
    readyComplete := fun hp => by
      obtain ⟨-, hh, hpin, hbus, hfreq, hv⟩ := h.readyComplete hp
      exact ⟨ha, hh, hpin, hbus, hfreq, fun i hi => hkeeps i (hv i hi)⟩
    pendingFrame := fun hw' => by simp [hw] at hw' }

theorem State.Inv.writePix (h : s.Inv) (hw : s.waiting = none) (ha : s.allocated = true) {index : Nat}
    (hi : index < s.count) (v : Slot) : (s.setPix (Memory.write s.pix index v)).Inv := by
  refine h.setPix hw ha (Memory.wf_write h.pixWf _ _) (Memory.below_write h.pixBelow hi _) fun i hv => ?_
  rw [Memory.read_write]
  split
  · rfl
  · exact hv

theorem State.Inv.fillPix (h : s.Inv) (hw : s.waiting = none) (ha : s.allocated = true) {first len : Nat}
    (hlen : len = 0 ∨ first + len ≤ s.count) (v : Slot) : (s.setPix (Memory.fill s.pix first len v)).Inv := by
  have hbelow : Memory.below (Memory.fill s.pix first len v) s.count := by
    obtain rfl | hlen := hlen
    · exact h.pixBelow
    · exact Memory.below_fill h.pixBelow hlen v
  refine h.setPix hw ha (Memory.wf_fill h.pixWf ..) hbelow fun i hv => ?_
  rw [Memory.read_fill]
  split
  · rfl
  · exact hv

theorem State.Inv.clearStore (h : s.Inv) (hw : s.waiting = none) (ha : s.allocated = true) : s.clearStore.Inv :=
  h.fillPix hw ha (.inr (by omega)) _

/-- Phase Ready is entered with everything INIT sets up there (40_pixel_store.md R101). -/
theorem State.Inv.enterReady (h : s.Inv) (hs : s.idleIn .unready) (ha : s.allocated = true) (hh : s.handle = .session)
    (hpin : s.cfgPin.isSome = true) (hbus : s.cfgBus.isSome = true) (hfreq : s.cfgFreq.isSome = true)
    (hv : s.allValued) : s.enterReady.Inv := by
  obtain ⟨hw, hp⟩ := hs
  have hfault : ¬ s.fault.isSome = true := fun hf => by simp [h.faultIffHalted.mpr hf] at hp
  exact
    { h with
      faultIffHalted := ⟨nofun, fun hf => absurd hf hfault⟩
      haltedNotWaiting := nofun
      readyComplete := fun _ => ⟨ha, hh, hpin, hbus, hfreq, hv⟩
      idleScratch := fun _ _ => h.idleScratch hw (by simp [hp]) }

/-! ## The transmission -/

/-- The event of a transmission on the session's handle has the form of its rule (42_encoder.md R174). -/
theorem State.showEvent_wellFormed (hh : s.handle = .session) (a : Option TransportAnswer) :
    (s.showEvent a).wellFormed s.count :=
  ⟨hh, rfl, by simp, enc_head? _, fun _ => mem_tail_enc⟩

/-- A list written from address 0 on is what is then read there, and nothing else is changed. -/
theorem Memory.read_writeFrom_zero {α : Type} (m : Memory α) (vs : List α) (k : Nat) :
    Memory.read (Memory.writeFrom m 0 vs) k = if k < vs.length then vs[k]? else Memory.read m k := by
  simp [Memory.read_writeFrom]

/-- A frame written over an empty scratch buffer is what the buffer then holds (42_encoder.md R172). -/
theorem State.read_showFramed_of_empty (hs : s.scratch = []) (k : Nat) :
    Memory.read s.showFramed.scratch k = (enc s.pixels)[k]? := by
  rw [State.showFramed, State.setScratch_scratch, Memory.read_writeFrom_zero, hs, Memory.read_nil]
  split
  · rfl
  · next hk => exact (List.getElem?_eq_none (Nat.le_of_not_lt hk)).symm

/-- A fault with values in the scratch buffer, in canonical form and in bounds (R176; log 11). -/
theorem State.Inv.setScratch_halt (h : s.Inv) (hw : s.waiting = none) {m : List Host.Cell} (hwf : Memory.wf m)
    (hbelow : Memory.below m (24 * s.count + 1)) (r : FaultReason) : ((s.setScratch m).halt r).Inv :=
  { h.halt hw r with
    scratchWf := hwf
    scratchBelow := hbelow
    idleScratch := by simp
    pendingFrame := fun hw' => by simp [hw] at hw' }

/-- The wait for a transmission's answer, the frame in the scratch buffer (60_exceptions.md R205; log 11). -/
theorem State.Inv.setScratch_waitFor (h : s.Inv) (hp : s.phase ≠ .halted) (hh : s.handle = .session) (hv : s.allValued)
    {m : List Host.Cell} (hwf : Memory.wf m) (hbelow : Memory.below m (24 * s.count + 1))
    (hread : ∀ k, Memory.read m k = (enc s.pixels)[k]?) : ((s.setScratch m).waitFor .transmit).Inv :=
  { h with
    scratchWf := hwf
    scratchBelow := hbelow
    haltedNotWaiting := fun h => absurd h hp
    idleScratch := nofun
    pendingFrame := fun _ => ⟨hh, hv, hread⟩ }

theorem State.Inv.setScratch_nil (h : s.Inv) (hw : s.waiting = none) : (s.setScratch []).Inv :=
  { h with
    scratchWf := List.Pairwise.nil
    scratchBelow := nofun
    idleScratch := fun _ _ => rfl
    pendingFrame := fun hw' => by simp [hw] at hw' }

/-- The state in which a transmission has made its request. -/
theorem State.showFramed_sent (s : State) (e : Event) :
    s.showFramed.dropTransportAnswer.emit e =
      (s.dropTransportAnswer.emit e).setScratch (Memory.writeFrom s.scratch 0 (enc s.pixels)) := rfl

variable (h : s.Inv) (hw : s.waiting = none) (hh : s.handle = .session)
include h hh

/-- The request of a transmission. -/
theorem State.Inv.sent (a : Option TransportAnswer) : (s.dropTransportAnswer.emit (s.showEvent a)).Inv :=
  h.dropTransportAnswer.emit (State.showEvent_wellFormed hh a)

omit hh in
/-- The frame is in canonical form and inside the scratch buffer (20_memory.md R53). -/
theorem State.Inv.frame_wf_below : Memory.wf (Memory.writeFrom s.scratch 0 (enc s.pixels)) ∧
    Memory.below (Memory.writeFrom s.scratch 0 (enc s.pixels)) (24 * s.count + 1) :=
  ⟨Memory.wf_writeFrom h.scratchWf .., Memory.below_writeFrom h.scratchBelow (by simp)⟩

include hw

theorem State.Inv.transmit_error :
    ((s.showFramed.dropTransportAnswer.emit (s.showEvent (some .error))).halt .transportTx).Inv := by
  obtain ⟨hwf, hbelow⟩ := h.frame_wf_below
  rw [State.showFramed_sent]
  exact (h.sent hh _).setScratch_halt hw hwf hbelow _

theorem State.Inv.transmit_noAnswer (hp : s.phase ≠ .halted) (hv : s.allValued) :
    ((s.showFramed.dropTransportAnswer.emit (s.showEvent none)).waitFor .transmit).Inv := by
  obtain ⟨hwf, hbelow⟩ := h.frame_wf_below
  have hread (k : Nat) := State.read_showFramed_of_empty (h.idleScratch hw hp) k
  rw [State.showFramed_sent]
  exact (h.sent hh _).setScratch_waitFor hp hh hv hwf hbelow hread

theorem State.Inv.transmit_ok :
    ((s.showFramed.dropTransportAnswer.emit (s.showEvent (some .ok))).setScratch []).Inv :=
  (h.sent hh _).setScratch_nil hw

end

/-! ## Commands -/

/-- SHOW keeps the invariant, however it ends. -/
theorem show_keeps_inv {s : State} (h : s.Inv) (hs : s.idleIn .ready) :
    (s.transmit fun t => t.respond 0x07#8 .ok 0#32).Inv := by
  obtain ⟨hw, hready⟩ := hs
  obtain ⟨-, hh, -, -, -, hv⟩ := h.readyComplete hready
  have hp : s.phase ≠ .halted := by simp [hready]
  apply s.show_cases State.Inv
  case noAnswer => intro _; exact h.transmit_noAnswer hw hh hp hv
  case fails => intro _; exact h.transmit_error hw hh
  case done => intro _; exact (h.transmit_ok hw hh).respondOk _

section
variable {s : State}

theorem State.Inv.backed (h : s.Inv) (hs : s.idleIn .unready) : s.backed.Inv := by
  unfold State.backed
  split
  · exact h
  · next ha => exact (h.dropAllocAnswer.emit (Event.wellFormed_alloc ..)).backStore (by simpa using ha) hs

theorem State.Inv.busReady (h : s.Inv) (hs : s.idleIn .unready) (pin bus freq : Slot) :
    (s.busReady pin bus freq).Inv :=
  ((h.backed hs).setConfig pin bus freq).dropTransportAnswer.emit (Event.wellFormed_busInit ..)

theorem State.busReady_idleIn (hs : s.idleIn .unready) (pin bus freq : Slot) :
    (s.busReady pin bus freq).idleIn .unready := by
  simpa [State.idleIn, State.busReady] using hs

theorem State.readyToTransmit_idleIn (hs : s.idleIn .unready) (pin bus freq : Slot) :
    (s.readyToTransmit pin bus freq).idleIn .unready := by
  simpa [State.idleIn, State.readyToTransmit, State.busReady] using hs

@[simp] theorem State.busReady_allocated (s : State) (pin bus freq : Slot) :
    (s.busReady pin bus freq).allocated = true := by simp [State.busReady]

theorem State.Inv.readyToTransmit (h : s.Inv) (hs : s.idleIn .unready) (pin bus freq : Slot) :
    (s.readyToTransmit pin bus freq).Inv :=
  ((h.busReady hs pin bus freq).dropTransportAnswer.emit (Event.wellFormed_deviceAttach ..)).attach.clearStore
    (s.busReady_idleIn hs pin bus freq).1 (s.busReady_allocated pin bus freq)

theorem State.readyToTransmit_count (s : State) (pin bus freq : Slot) :
    (s.readyToTransmit pin bus freq).count = s.count := by simp [State.readyToTransmit, State.busReady]

/-- INIT transmits the store it has just cleared (40_pixel_store.md R104). -/
theorem State.readyToTransmit_pixels (s : State) (pin bus freq : Slot) :
    (s.readyToTransmit pin bus freq).pixels = List.replicate s.count 0#32 := by
  rw [State.readyToTransmit, State.pixels_clearStore]
  simp [State.busReady]

/-- INIT's frame is the transmission SHOW would make of the cleared store. -/
theorem State.framed_eq_showFramed (s : State) (pin bus freq : Slot) :
    s.framed pin bus freq = (s.readyToTransmit pin bus freq).showFramed := by
  have hscratch : (s.readyToTransmit pin bus freq).scratch = s.scratch := by
    simp [State.readyToTransmit, State.busReady]
  rw [State.framed, State.showFramed, State.readyToTransmit_pixels, hscratch]

theorem State.allOffEvent_eq_showEvent (s : State) (pin bus freq : Slot) (a : Option TransportAnswer) :
    s.allOffEvent a = (s.readyToTransmit pin bus freq).showEvent a := by
  rw [State.allOffEvent, State.showEvent, State.readyToTransmit_pixels, State.readyToTransmit_count]
  rfl

end

/-- INIT keeps the invariant, however it ends. -/
theorem initialise_keeps_inv {s : State} (h : s.Inv) (hs : s.idleIn .unready) (pin bus freq : Slot) :
    (s.initialise pin bus freq).Inv := by
  have hp : s.phase ≠ .halted := by simp [hs.2]
  have hback := h.backed hs
  have hbus := h.busReady hs pin bus freq
  have hready := h.readyToTransmit hs pin bus freq
  obtain ⟨hbw, hbp⟩ := s.busReady_idleIn hs pin bus freq
  have hidle := s.readyToTransmit_idleIn hs pin bus freq
  have hrw := hidle.1
  have hra : (s.readyToTransmit pin bus freq).allocated = true := by simp [State.readyToTransmit]
  have hh : (s.readyToTransmit pin bus freq).handle = .session := rfl
  have hrp : (s.readyToTransmit pin bus freq).phase ≠ .halted := by simp [hidle.2]
  have hvalued : (s.readyToTransmit pin bus freq).allValued := State.allValued_clearStore _
  apply s.initialise_cases pin bus freq State.Inv
  case noAlloc => intro _ _; exact (h.dropAllocAnswer.emit (Event.wellFormed_alloc ..)).waitFor hp nofun
  case allocFails =>
    intro _ _
    exact (h.dropAllocAnswer.emit (Event.wellFormed_alloc ..)).respond (by simp [Event.wellFormed])
  case noBus =>
    intro _ _
    exact ((hback.setConfig ..).dropTransportAnswer.emit (Event.wellFormed_busInit ..)).waitFor (by simpa using hp)
      nofun
  case busFails =>
    intro _ _
    exact ((hback.setConfig ..).dropTransportAnswer.emit (Event.wellFormed_busInit ..)).halt (by simpa using hs.1) _
  case noAttach =>
    intro _ _ _
    exact (hbus.dropTransportAnswer.emit (Event.wellFormed_deviceAttach ..)).waitFor (by simp [hbp]) nofun
  case attachFails =>
    intro _ _ _
    exact (hbus.dropTransportAnswer.emit (Event.wellFormed_deviceAttach ..)).halt hbw _
  all_goals
    intro _ _ _ _
    rw [State.framed_eq_showFramed, s.allOffEvent_eq_showEvent pin bus freq]
  case noTransmit => exact hready.transmit_noAnswer hrw hh hrp hvalued
  case transmitFails => exact hready.transmit_error hrw hh
  case done =>
    exact ((hready.transmit_ok hrw hh).enterReady hidle hra rfl rfl rfl rfl hvalued).respondOk _

/-- The range of a fill is empty or ends inside the store (R121). -/
theorem fillEnd_le {n : Nat} {first cnt : Slot} {stop : Nat} (h : fillEnd n first cnt = some stop) : stop ≤ n := by
  unfold fillEnd at h
  split_ifs at h <;> simp at h <;> omega

/-- Every command keeps the invariant. -/
theorem exec_keeps_inv {i : Instr} {s t : State} (h : s.Inv) (hexec : exec i s = .next t) : t.Inv := by
  have hbacked (hs : s.idleIn .ready) : s.allocated = true := (h.readyComplete hs.2).1
  cases hi : isInit i with
  | true =>
    cases i <;> cases hi
    obtain ⟨hs, rfl⟩ := exec_init_next hexec
    exact initialise_keeps_inv h hs ..
  | false =>
    apply exec_next_cases hi hexec State.Inv
    case notReady => intro hs _; exact h.halt hs.1 _
    case writes => intro hs index color _ hx; exact (h.writePix hs.1 (hbacked hs) hx color).respondOk _
    case errBounds => intro _ ho; exact h.respond (by simpa [Event.wellFormed] using ho)
    case fills =>
      intro hs first cnt color stop _ hf
      have hstop := fillEnd_le hf
      exact (h.fillPix hs.1 (hbacked hs) (by omega) color).respondOk _
    case clears => intro hs _; exact (h.clearStore hs.1 (hbacked hs)).respondOk _
    case shows => intro hs _ _; exact show_keeps_inv h hs
    case reads => intros; exact h.respond (by simp [Event.wellFormed])
    case readOor => intro hs _ _ _; exact h.halt hs.1 _
    case packs | converts => intros; exact h.respond (by simp [Event.wellFormed])

/-! ## Reset -/

/-- A reset of a block that meets the invariant leaves one that does (70_reset_and_hazards.md R230). -/
theorem State.Inv.restart {s : State} (h : s.Inv) : s.restart.Inv where
  pixWf := by cases hb : s.backing <;> simp [State.restart_pix_of_borrowed, State.restart_pix_of_owned, hb, h.pixWf]
  pixBelow := by
    cases hb : s.backing with
    | owned => rw [State.restart_pix_of_owned hb]; nofun
    | borrowed => rw [State.restart_pix_of_borrowed hb]; exact h.pixBelow
  scratchWf := List.Pairwise.nil
  scratchBelow := nofun
  faultIffHalted := by simp
  haltedNotWaiting := nofun
  borrowedBacked hb := by
    refine ⟨s.restart_allocated.mpr hb, fun i hi => ?_⟩
    rw [State.restart_pix_of_borrowed (s := s) hb]
    exact (h.borrowedBacked hb).2 i hi
  unbackedEmpty ha := by
    cases hb : s.backing with
    | owned => exact State.restart_pix_of_owned hb
    | borrowed => simp [s.restart_allocated.mpr hb] at ha
  readyComplete := nofun
  idleScratch _ _ := rfl
  pendingFrame := nofun
  historyWf := nofun

/-- Settles O51: a step is a reset, a direct host write, a command, or nothing, and each keeps the invariant. -/
theorem stepKeepsInvariant : Obligations.StepKeepsInvariant := by
  intro s t h hstep
  obtain ⟨rest, -, rfl⟩ | ⟨hw, ⟨-, rfl⟩ | ⟨w, rest, i, -, -, hexec⟩ | ⟨-, hb, -, ⟨index, v, hx, rfl⟩ | rfl⟩⟩ :=
    step_next_cases hstep
  · exact h.dropHostMove.restart
  · exact h
  · exact exec_keeps_inv h.dropHostMove hexec
  · exact h.dropHostMove.writePix hw (h.borrowedBacked hb).1 hx v
  · exact h.dropHostMove

end Sys2Proof.Machine

/-! Proofs: construction and reset (spec 10_state.md R39; 70_reset_and_hazards.md R230), and what one step does with the
host's next move (10_state.md R35; 40_pixel_store.md R100; 60_exceptions.md R200, R202, R205). -/

namespace Sys2Proof.Machine

/-! ## Construction and reset -/

section
variable (p : Params) (buffer : Nat → Slot) (alloc : List (Option AllocAnswer))
  (transport : List (Option TransportAnswer))

theorem State.resetOf_allocated :
    (State.resetOf p buffer alloc transport).allocated = true ↔ p.backing = .borrowed := by
  unfold State.resetOf
  cases p.backing <;> simp

variable {p} in
theorem State.resetOf_pix_of_owned (hb : p.backing = .owned) :
    (State.resetOf p buffer alloc transport).pix = [] := by
  simp only [State.resetOf, hb]

variable {p} in
theorem State.resetOf_pix_of_borrowed (hb : p.backing = .borrowed) :
    (State.resetOf p buffer alloc transport).pix = (List.range p.count).map fun i => (i, buffer i) := by
  simp only [State.resetOf, hb]

/-- After construction a borrowed store holds what the host's buffer holds, an owned one no value (R39). -/
theorem State.read_resetOf_pix (i : Nat) :
    Memory.read (State.resetOf p buffer alloc transport).pix i =
      if p.backing = .borrowed ∧ i < p.count then some (buffer i) else none := by
  cases hb : p.backing with
  | owned => simp [State.resetOf_pix_of_owned buffer alloc transport hb]
  | borrowed => simp [State.resetOf_pix_of_borrowed buffer alloc transport hb, Memory.read_ofRange]

theorem State.resetOf_inv : (State.resetOf p buffer alloc transport).Inv where
  pixWf := by
    cases hb : p.backing with
    | owned => rw [State.resetOf_pix_of_owned buffer alloc transport hb]; exact List.Pairwise.nil
    | borrowed => rw [State.resetOf_pix_of_borrowed buffer alloc transport hb]; exact Memory.wf_ofRange _ _
  pixBelow := by
    cases hb : p.backing with
    | owned => rw [State.resetOf_pix_of_owned buffer alloc transport hb]; nofun
    | borrowed =>
      rw [State.resetOf_pix_of_borrowed buffer alloc transport hb]
      intro c hc
      obtain ⟨i, hi, rfl⟩ := List.mem_map.mp hc
      exact List.mem_range.mp hi
  scratchWf := List.Pairwise.nil
  scratchBelow := nofun
  faultIffHalted := ⟨nofun, nofun⟩
  haltedNotWaiting := nofun
  borrowedBacked hb := by
    refine ⟨(State.resetOf_allocated ..).mpr hb, fun i hi => ?_⟩
    rw [State.read_resetOf_pix, if_pos ⟨hb, hi⟩]
    rfl
  unbackedEmpty ha := by
    cases hb : p.backing with
    | owned => exact State.resetOf_pix_of_owned buffer alloc transport hb
    | borrowed => simp [(State.resetOf_allocated p buffer alloc transport).mpr hb] at ha
  readyComplete := nofun
  idleScratch _ _ := rfl
  pendingFrame := nofun
  historyWf := nofun

end

/-- Settles O50: construction leaves an idle block whose store is empty, or is the host's buffer. -/
theorem resetMeetsInvariant : Obligations.ResetMeetsInvariant :=
  ⟨State.resetOf_inv, State.resetOf_inv _ _ _ _⟩

/-- The host may reset the block at any time (R230). -/
theorem step_of_reset {s : State} {rest : List HostMove} (hh : s.host = .reset :: rest) :
    step s = .next s.dropHostMove.restart := by
  simp only [step, hh]

/-- A reset keeps the slots of a borrowed store, and an owned one then holds no value (R39). -/
theorem State.read_restart_pix (s : State) (i : Nat) :
    Memory.read s.restart.pix i = if s.backing = .borrowed then Memory.read s.pix i else none := by
  cases hb : s.backing with
  | owned => simp [State.restart_pix_of_owned hb]
  | borrowed => simp [State.restart_pix_of_borrowed hb]

/-- Settles O52: construction and reset set every field but the store, whose slots are read back. -/
theorem resetValues : Obligations.ResetValues := by
  constructor
  · intro p buffer alloc transport
    exact ⟨rfl, State.resetOf_allocated .., rfl, rfl, rfl, rfl, rfl, rfl, rfl, rfl, rfl, fun _ => rfl,
      State.read_resetOf_pix _ _ _ _, rfl, rfl, rfl, rfl⟩
  · intro s rest hh
    have hrest : s.dropHostMove.restart.host = rest := by simp [hh]
    exact ⟨_, step_of_reset hh, rfl, s.dropHostMove.restart_allocated, rfl, rfl, rfl, rfl, rfl, rfl, rfl, rfl, rfl,
      fun _ => rfl, s.dropHostMove.read_restart_pix, rfl, hrest, rfl, rfl⟩

/-! ## One step -/

theorem State.dropHostMove_eq {s : State} {m : HostMove} {rest : List HostMove} (hh : s.host = m :: rest) :
    s.dropHostMove = { s with host := rest } := by
  rw [State.dropHostMove, hh, List.tail_cons]

/-- Settles O8: the word is looked at once nothing is unanswered, and the decoder gives `i`. -/
theorem stepRunsDecodedCommand : Obligations.StepRunsDecodedCommand := by
  intro s w rest i hw hh hd
  simp [step, hh, whenAnswered, hw, runWord, hd, State.dropHostMove_eq hh]

/-- Settles O9: with no move and no unanswered request the step leaves the state. -/
theorem idleBlockKeepsItsState : Obligations.IdleBlockKeepsItsState := by
  intro s hw hh
  simp [step, hh, whenAnswered, hw]

/-! ## Acceptance, halting and waiting -/

/-- Every command is its body behind acceptance, a store or transmit command behind that of its class (R100). -/
theorem exec_eq_accept (i : Instr) : ∃ c : CommandClass, (needsReady i = true → c = .store) ∧
    ∀ s : State, ∃ body, exec i s = accept c s body := by
  cases i with
  | init => exact ⟨.initialisation, nofun, fun _ => ⟨_, rfl⟩⟩
  | rgb2pk | hsv2pk => exact ⟨.conversion, nofun, fun _ => ⟨_, rfl⟩⟩
  | setpx | setrgb | sethsv | fill | clear | showFrame | getpx => exact ⟨.store, fun _ => rfl, fun _ => ⟨_, rfl⟩⟩

/-- Settles O10: acceptance of a store command faults NOT_READY in phase Unready, whatever the command's body. -/
theorem storeCommandBeforeInitFaults : Obligations.StoreCommandBeforeInitFaults := by
  intro i s hi hs
  obtain ⟨c, hc, hexec⟩ := exec_eq_accept i
  obtain ⟨body, hexec⟩ := hexec s
  rw [hexec, hc hi]
  exact accept_store_unready hs body

/-- Settles O11: acceptance stops in phase Halted, whatever the class and the body. -/
theorem haltedBlockTakesNoStep : Obligations.HaltedBlockTakesNoStep := by
  intro i s hs
  obtain ⟨c, -, hexec⟩ := exec_eq_accept i
  obtain ⟨body, hexec⟩ := hexec s
  rw [hexec]
  exact accept_halted hs c body

theorem hostAccess_waiting {s : State} {q : Request} (hw : s.waiting = some q)
    (body : Host.Outcome State Fault Refusal) : hostAccess s body = .fault (.stuck q) := by
  simp [hostAccess, hw]

/-- Settles O12: acceptance, a direct host access and an idle step all ask first that no request is unanswered. -/
theorem waitingBlockAcceptsNothing : Obligations.WaitingBlockAcceptsNothing := by
  intro i s q hw
  constructor
  · obtain ⟨c, -, hexec⟩ := exec_eq_accept i
    obtain ⟨body, hexec⟩ := hexec s
    rw [hexec]
    exact accept_waiting hw c body
  · intro hreset
    unfold step
    split
    next => simp [whenAnswered, hw]
    next => simp [whenAnswered, hw]
    next => exact hostAccess_waiting hw _
    next => exact hostAccess_waiting hw _
    next hh => simp [hh] at hreset

/-- Settles O14: `settle` sets the mark on a refusal, and the mark alone denies the claim. -/
theorem refusalMarksTheRun : Obligations.RefusalMarksTheRun := by
  intro s r h
  rw [h]
  exact ⟨rfl, fun hclaims => nomatch hclaims.2⟩

end Sys2Proof.Machine

/-! Proofs: what a command leaves unchanged (spec 10_state.md R25, R29, R31; 20_memory.md R59), and what follows for a
step: the life cycle of PHASE (R23), what no step takes back, and the history. -/

namespace Sys2Proof.Machine

/-! ## What a command other than INIT leaves unchanged -/

/-- From `s` to `t` the registers INIT writes, the construction constants, the mark, the host's moves and the
allocator's draws are kept. -/
structure State.KeepsRegisters (s t : State) : Prop where
  count : t.count = s.count
  backing : t.backing = s.backing
  allocated : t.allocated = s.allocated
  cfgPin : t.cfgPin = s.cfgPin
  cfgBus : t.cfgBus = s.cfgBus
  cfgFreq : t.cfgFreq = s.cfgFreq
  handle : t.handle = s.handle
  refused : t.refused = s.refused
  host : t.host = s.host
  allocAnswers : t.allocAnswers = s.allocAnswers

theorem show_keepsRegisters (s : State) : s.KeepsRegisters (s.transmit fun t => t.respond 0x07#8 .ok 0#32) := by
  apply s.show_cases s.KeepsRegisters
  case noAnswer | fails | done => intro _; constructor <;> simp [State.showFramed]

theorem exec_keepsRegisters {i : Instr} {s t : State} (hi : isInit i = false) (h : exec i s = .next t) :
    s.KeepsRegisters t := by
  apply exec_next_cases hi h s.KeepsRegisters
  case shows => intros; exact show_keepsRegisters s
  all_goals intros; constructor <;> rfl

theorem show_pix (s : State) : (s.transmit fun t => t.respond 0x07#8 .ok 0#32).pix = s.pix := by
  apply s.show_cases fun t => t.pix = s.pix
  case noAnswer | fails | done => intro _; simp

/-- A command that writes one slot stores to that slot (20_memory.md R59). -/
theorem storesTo_of_writes {i : Instr} {index color : Slot} {n : Nat}
    (hi : i = .setpx index color ∨ (∃ r g b, i = .setrgb index r g b ∧ color = pack r g b) ∨
      ∃ hue sat val, i = .sethsv index hue sat val ∧ color = hsvToPacked hue sat val)
    (hx : index.toNat < n) : storesTo n index.toNat i = true := by
  obtain rfl | ⟨r, g, b, rfl, -⟩ | ⟨hue, sat, val, rfl, -⟩ := hi <;> simp [storesTo, hx]

/-- A fill stores to the slots up to its end (20_memory.md R59; 40_pixel_store.md R121). -/
theorem storesTo_fill {n j stop : Nat} {first cnt color : Slot} (hf : fillEnd n first cnt = some stop) :
    storesTo n j (.fill first cnt color) = true ↔ first.toNat ≤ j ∧ j < stop := by
  simp [storesTo, hf]

/-- A slot the command does not store to reads as before (20_memory.md R59). -/
theorem exec_keeps_slot {i : Instr} {s t : State} (hi : isInit i = false) (h : exec i s = .next t) {j : Nat}
    (hj : ¬ storesTo s.count j i = true) : Memory.read t.pix j = Memory.read s.pix j := by
  apply exec_next_cases hi h
  case writes =>
    intro _ index color hc hx
    have hne : j ≠ index.toNat := by rintro rfl; exact hj (storesTo_of_writes hc hx)
    rw [State.respond_pix, State.setPix_pix, Memory.read_write, if_neg hne]
  case fills =>
    rintro _ first cnt color stop rfl hf
    rw [storesTo_fill hf] at hj
    rw [State.respond_pix, State.setPix_pix, Memory.read_fill_upTo, if_neg hj]
  case clears =>
    rintro _ rfl
    have hge : ¬ j < s.count := by simpa [storesTo] using hj
    rw [State.respond_pix, State.read_clearStore, if_neg hge]
  case shows => intros; rw [show_pix]
  all_goals intros; rfl

/-- Only SHOW and INIT use the scratch buffer and make requests of the transport. -/
theorem exec_keeps_transport {i : Instr} {s t : State} (hi : isInit i = false) (h : exec i s = .next t)
    (hshow : i ≠ .showFrame) :
    t.scratch = s.scratch ∧ t.waiting = s.waiting ∧ t.transportAnswers = s.transportAnswers := by
  apply exec_next_cases hi h
  case shows => rintro - rfl; exact absurd rfl hshow
  all_goals intros; exact ⟨rfl, rfl, rfl⟩

/-- From `s` to `t` PHASE and FAULT are kept, unless the block is halted. -/
def State.KeepsPhase (s t : State) : Prop := t.phase ≠ .halted → t.phase = s.phase ∧ t.fault = s.fault

theorem show_keepsPhase (s : State) : s.KeepsPhase (s.transmit fun t => t.respond 0x07#8 .ok 0#32) := by
  apply s.show_cases s.KeepsPhase
  case noAnswer | done => intro _ _; simp [State.showFramed]
  case fails => intro _ hp; exact absurd rfl hp

/-- A command other than INIT changes PHASE and FAULT by a fault alone. -/
theorem exec_keepsPhase {i : Instr} {s t : State} (hi : isInit i = false) (h : exec i s = .next t) :
    s.KeepsPhase t := by
  apply exec_next_cases hi h s.KeepsPhase
  case notReady => intro _ _ hp; exact absurd rfl hp
  case readOor => intro _ _ _ _ hp; exact absurd rfl hp
  case shows => intros; exact show_keepsPhase s
  all_goals intros; exact fun _ => ⟨rfl, rfl⟩

/-- Settles O32: the registers, the slots, the transport and the phase, each along the ways a command can end. -/
theorem commandFrame : Obligations.CommandFrame := by
  intro i s t hi h
  obtain ⟨hcount, hbacking, hallocated, hpin, hbus, hfreq, hhandle, hrefused, hhost, halloc⟩ := exec_keepsRegisters hi h
  exact ⟨hcount, hbacking, hallocated, hpin, hbus, hfreq, hhandle, hrefused, hhost, halloc,
    fun j hj => exec_keeps_slot hi h (by simp [hj]), exec_keeps_transport hi h, exec_keepsPhase hi h⟩

/-! ## What INIT leaves unchanged -/

/-- From `s` to `t` nothing is changed that INIT never changes, and nothing taken back that it may give: the
construction constants, the mark and the host's moves are kept, and so are an allocated store with the allocator's
draws, and an acquired handle. -/
structure State.KeepsAcquired (s t : State) : Prop where
  count : t.count = s.count
  backing : t.backing = s.backing
  refused : t.refused = s.refused
  host : t.host = s.host
  allocated : s.allocated = true → t.allocated = true ∧ t.allocAnswers = s.allocAnswers
  handle : s.handle = .session → t.handle = .session

theorem initialise_keepsAcquired (s : State) (pin bus freq : Slot) :
    s.KeepsAcquired (s.initialise pin bus freq) := by
  apply s.initialise_cases pin bus freq s.KeepsAcquired
  case noAlloc | allocFails =>
    intro ha _
    exact ⟨rfl, rfl, rfl, rfl, fun ha' => by simp [ha] at ha', id⟩
  all_goals
    intros
    constructor <;> simp +contextual [State.framed, State.readyToTransmit, State.busReady, State.backed_allocAnswers]

/-- Bytes of the scratch buffer beyond a frame are kept, where the buffer keeps its bytes (20_memory.md R53; log 11). -/
theorem initialise_keeps_scratch (s : State) (pin bus freq : Slot) :
    (s.initialise pin bus freq).scratch = [] ∨ ∀ k, 24 * s.count + 1 ≤ k →
      Memory.read (s.initialise pin bus freq).scratch k = Memory.read s.scratch k := by
  apply s.initialise_cases pin bus freq fun t =>
    t.scratch = [] ∨ ∀ k, 24 * s.count + 1 ≤ k → Memory.read t.scratch k = Memory.read s.scratch k
  case done => intros; exact .inl rfl
  case noTransmit | transmitFails =>
    intros
    refine .inr fun k hk => ?_
    refine (Memory.read_writeFrom_zero _ _ _).trans (if_neg ?_)
    simpa using hk
  all_goals intros; right; simp [State.busReady]

/-- INIT clears the slots below `N` and no other. -/
theorem initialise_keeps_slot {s : State} (hs : s.allocated = true ∨ s.pix = []) (pin bus freq : Slot) {j : Nat}
    (hj : s.count ≤ j) : Memory.read (s.initialise pin bus freq).pix j = Memory.read s.pix j := by
  have hbacked : s.backed.pix = s.pix := by
    rw [State.backed_pix]
    obtain hs | hs := hs <;> simp [hs]
  have hcleared : Memory.read s.backed.clearStore.pix j = Memory.read s.pix j := by
    rw [State.read_clearStore, State.backed_count, if_neg (by omega), hbacked]
  apply s.initialise_cases pin bus freq fun t => Memory.read t.pix j = Memory.read s.pix j
  case noTransmit | transmitFails | done => intros; simpa using hcleared
  all_goals intros; simp [State.busReady, hbacked]

/-- Settles O20: the constants and what is acquired, the scratch buffer, the slots, each along the ways INIT ends. -/
theorem initFrame : Obligations.InitFrame := by
  intro pin bus freq s t h
  obtain ⟨-, rfl⟩ := exec_init_next h
  obtain ⟨hcount, hbacking, hrefused, hhost, hallocated, -⟩ := initialise_keepsAcquired s pin bus freq
  exact ⟨hcount, hbacking, hrefused, hhost, initialise_keeps_scratch s pin bus freq, hallocated,
    fun hs j hj => initialise_keeps_slot hs pin bus freq (by simpa [storesTo] using hj)⟩

/-! ## What no step takes back -/

theorem exec_keepsAcquired {i : Instr} {s t : State} (h : exec i s = .next t) : s.KeepsAcquired t := by
  cases hi : isInit i with
  | true =>
    cases i <;> cases hi
    obtain ⟨-, rfl⟩ := exec_init_next h
    exact initialise_keepsAcquired s ..
  | false =>
    obtain ⟨hcount, hbacking, hallocated, -, -, -, hhandle, hrefused, hhost, halloc⟩ := exec_keepsRegisters hi h
    exact ⟨hcount, hbacking, hrefused, hhost, fun ha => ⟨hallocated.trans ha, halloc⟩, hhandle.trans⟩

/-- Settles O55: a command takes nothing back, a direct host move changes the store alone, and a reset keeps COUNT and
BACKING and backs a borrowed store again. -/
theorem nothingIsTakenBack : Obligations.NothingIsTakenBack := by
  intro s t hstep
  obtain ⟨rest, hh, rfl⟩ | ⟨-, ⟨-, rfl⟩ | ⟨w, rest, i, -, -, hexec⟩ | ⟨-, -, -, ⟨index, v, -, rfl⟩ | rfl⟩⟩ :=
    step_next_cases hstep
  case inl =>
    exact ⟨rfl, rfl, fun hne => absurd (by simp [hh]) hne, fun hb _ => s.dropHostMove.restart_allocated.mpr hb⟩
  case inr.inr.inl =>
    obtain ⟨hcount, hbacking, hrefused, -, hallocated, hhandle⟩ := exec_keepsAcquired hexec
    exact ⟨hcount, hbacking, fun _ => ⟨hrefused, fun ha => (hallocated ha).1, hhandle⟩, fun _ ha => (hallocated ha).1⟩
  all_goals exact ⟨rfl, rfl, fun _ => ⟨rfl, id, id⟩, fun _ => id⟩

/-! ## The history -/

theorem initialise_history_prefix (s : State) (pin bus freq : Slot) :
    s.history <+: (s.initialise pin bus freq).history := by
  apply s.initialise_cases pin bus freq fun t => s.history <+: t.history
  all_goals
    intros
    simp [State.framed, State.readyToTransmit, State.busReady, State.backed_history]

theorem exec_history_prefix {i : Instr} {s t : State} (h : exec i s = .next t) : s.history <+: t.history := by
  cases hi : isInit i with
  | true =>
    cases i <;> cases hi
    obtain ⟨-, rfl⟩ := exec_init_next h
    exact initialise_history_prefix s ..
  | false =>
    apply exec_next_cases hi h
    case shows =>
      intro _ _ _
      apply s.show_cases fun t => s.history <+: t.history
      case noAnswer | fails | done => intro _; simp
    all_goals intros; simp

/-- Settles O56: a command appends, a direct host move leaves the history, and a reset empties it. -/
theorem historyOnlyGrows : Obligations.HistoryOnlyGrows := by
  intro s t hstep
  obtain ⟨rest, hh, rfl⟩ | ⟨-, ⟨-, rfl⟩ | ⟨w, rest, i, -, -, hexec⟩ | ⟨-, -, -, ⟨index, v, -, rfl⟩ | rfl⟩⟩ :=
    step_next_cases hstep
  case inl => exact .inr ⟨by simp [hh], rfl⟩
  case inr.inr.inl =>
    have hprefix := exec_history_prefix hexec
    exact .inl hprefix
  all_goals exact .inl List.prefix_rfl

/-- Settles O57: a history is what stands in front of the empty one, and a command commutes with what stands there. -/
theorem historyIsNeverRead : Obligations.HistoryIsNeverRead := by
  intro i s h
  rw [s.withHistory_eq_prepend, exec_prepend]
  rfl

/-! ## The life cycle of PHASE -/

/-- The answers with which INIT completes (40_pixel_store.md R101). -/
def State.AllAnsweredOk (s : State) : Prop :=
  s.canBack ∧ s.transportAnswer 0 = some .ok ∧ s.transportAnswer 1 = some .ok ∧ s.transportAnswer 2 = some .ok

/-- INIT that leads to phase Ready has had every answer OK. -/
theorem allAnsweredOk_of_initialise_ready {s : State} (hp : s.phase = .unready) {pin bus freq : Slot}
    (h : (s.initialise pin bus freq).phase = .ready) : s.AllAnsweredOk := by
  revert h
  apply s.initialise_cases pin bus freq fun t => t.phase = .ready → s.AllAnsweredOk
  case done => intro hb h0 h1 h2 _; exact ⟨hb, h0, h1, h2⟩
  all_goals intros; simp_all [State.busReady]

/-- If from `s` to `t` the block is halted, a fault is recorded and no response given (60_exceptions.md R200). -/
def State.HaltsSilently (s t : State) : Prop :=
  t.phase = .halted → t.fault.isSome = true ∧ responses t.history = responses s.history

theorem initialise_haltsSilently {s : State} (hp : s.phase = .unready) (pin bus freq : Slot) :
    s.HaltsSilently (s.initialise pin bus freq) := by
  apply s.initialise_cases pin bus freq s.HaltsSilently
  case busFails | attachFails | transmitFails => intros; intro _; simp [responses_append]
  all_goals intros; simp [State.HaltsSilently, State.busReady, hp]

theorem show_haltsSilently {s : State} (hp : s.phase ≠ .halted) :
    s.HaltsSilently (s.transmit fun t => t.respond 0x07#8 .ok 0#32) := by
  apply s.show_cases s.HaltsSilently
  case noAnswer | done => intro _ ht; exact absurd ht (by simpa [State.showFramed] using hp)
  case fails => intro _ _; simp [responses_append]

/-- A command that halts the block records a fault and gives no response (60_exceptions.md R200). -/
theorem exec_haltsSilently {i : Instr} {s t : State} (h : exec i s = .next t) (hp : s.phase ≠ .halted) :
    s.HaltsSilently t := by
  cases hi : isInit i with
  | true =>
    cases i <;> cases hi
    obtain ⟨⟨-, hunready⟩, rfl⟩ := exec_init_next h
    exact initialise_haltsSilently hunready _ _ _
  | false =>
    apply exec_next_cases hi h s.HaltsSilently
    case notReady => intro _ _ _; exact ⟨rfl, rfl⟩
    case readOor => intro _ _ _ _ _; exact ⟨rfl, rfl⟩
    case shows => intro _ _ _; exact show_haltsSilently hp
    all_goals intros; exact fun ht => absurd ht hp

/-- A halted block takes no step on any command (R200). -/
theorem phase_ne_halted_of_exec_next {i : Instr} {s t : State} (hw : s.waiting = none) (h : exec i s = .next t) :
    s.phase ≠ .halted := by
  intro hp
  rw [haltedBlockTakesNoStep i s ⟨hw, hp⟩] at h
  cases h

/-- A command leads from one phase that runs to another only as INIT whose every answer is OK. -/
theorem exec_changes_phase {i : Instr} {s t : State} (h : exec i s = .next t) (ht : t.phase ≠ .halted)
    (hne : t.phase ≠ s.phase) :
    s.phase = .unready ∧ t.phase = .ready ∧ s.AllAnsweredOk ∧ ∃ pin bus freq, i = .init pin bus freq := by
  cases hi : isInit i with
  | false => exact absurd (exec_keepsPhase hi h ht).1 hne
  | true =>
    obtain ⟨pin, bus, freq⟩ | _ := i <;> cases hi
    obtain ⟨⟨-, hp⟩, rfl⟩ := exec_init_next h
    have hready : (s.initialise pin bus freq).phase = .ready := by
      cases hq : (s.initialise pin bus freq).phase with
      | ready => rfl
      | halted => exact absurd hq ht
      | unready => exact absurd (hq.trans hp.symm) hne
    exact ⟨hp, hready, allAnsweredOk_of_initialise_ready hp hready, pin, bus, freq, rfl⟩

/-- Settles O54: only commands and resets change PHASE, and a command changes it by a fault or as an INIT that
completes. -/
theorem phaseLifeCycle : Obligations.PhaseLifeCycle := by
  intro s t hstep
  obtain ⟨rest, hh, rfl⟩ | ⟨hw, ⟨-, rfl⟩ | ⟨w, rest, i, hh, hd, hexec⟩ | ⟨hp, -, -, ⟨index, v, -, rfl⟩ | rfl⟩⟩ :=
    step_next_cases hstep
  case inl =>
    have hreset : s.host.head? = some .reset := by simp [hh]
    exact ⟨nofun, fun _ _ => hreset, nofun, fun _ => .inr hreset⟩
  case inr.inl =>
    exact ⟨fun h h' => by simp [h] at h', fun h h' => absurd h' h, fun h h' => absurd h' h, fun _ => .inl rfl⟩
  case inr.inr.inl =>
    have hhalts := exec_haltsSilently hexec
    have hp : s.phase ≠ .halted := phase_ne_halted_of_exec_next (s := s.dropHostMove) hw hexec
    refine ⟨fun h h' => ?_, fun h h' => ?_, hhalts, fun h => absurd h hp⟩
    · obtain ⟨-, -, hok, pin, bus, freq, rfl⟩ :=
        exec_changes_phase hexec (by simp [h']) (by simp [h, h'])
      exact ⟨w, rest, pin, bus, freq, hh, hd, hok⟩
    · obtain ⟨hunready, -⟩ := exec_changes_phase hexec (by simp [h']) (by simpa [h'] using Ne.symm h)
      exact absurd hunready h
  all_goals
    exact ⟨fun h h' => by simp [h] at h', fun h h' => absurd h' h, fun h h' => absurd h' h, fun h => absurd h hp⟩

end Sys2Proof.Machine

/-! Proofs: the store commands (spec 40_pixel_store.md R110 to R130), what a SHOW or a read after a write finds
(20_memory.md R60, R63, R64), and color conversion (41_color_conversion.md R141 to R148). -/

namespace Sys2Proof.Machine

/-! ## Commands that write one slot -/

theorem State.writeSlot_of_inStore {s : State} {index : Slot} (hi : index.toNat < s.count) (opc : Byte) (color : Slot) :
    s.writeSlot opc index color = (s.setPix (Memory.write s.pix index.toNat color)).respond opc .ok 0#32 := by
  rw [State.writeSlot_eq, if_pos hi]

/-- From `s` to `t` slot `i` has got the value `v` and the block has responded OK under `opc`; nothing else changed. -/
structure State.StoredSlot (s : State) (opc : Byte) (i : Nat) (v : Slot) (t : State) : Prop where
  frame : t = { s with pix := t.pix, history := s.history ++ [.resp opc .ok 0#32] }
  read : ∀ j, Memory.read t.pix j = if j = i then some v else Memory.read s.pix j

/-- SETPX, SETRGB and SETHSV share one write (R110, R115, R117). -/
theorem State.storedSlot_writeSlot {s : State} {index : Slot} (hi : index.toNat < s.count) (opc : Byte) (color : Slot) :
    s.StoredSlot opc index.toNat color (s.writeSlot opc index color) := by
  rw [State.writeSlot_of_inStore hi]
  exact ⟨rfl, Memory.read_write _ _ _⟩

section
variable {s : State} (hs : s.idleIn .ready)
include hs

theorem exec_setpx_of_ready (index color : Slot) :
    exec (.setpx index color) s = .next (s.writeSlot 0x02#8 index color) := accept_store_ready hs _

theorem exec_setrgb_of_ready (index : Slot) (r g b : Byte) :
    exec (.setrgb index r g b) s = .next (s.writeSlot 0x03#8 index (pack r g b)) := accept_store_ready hs _

theorem exec_sethsv_of_ready (index : Slot) (hue sat val : Byte) :
    exec (.sethsv index hue sat val) s = .next (s.writeSlot 0x04#8 index (hsvToPacked hue sat val)) :=
  accept_store_ready hs _

theorem exec_clear_of_ready : exec .clear s = .next (s.clearStore.respond 0x06#8 .ok 0#32) := accept_store_ready hs _

end

/-- Settles O21: the shared write, with the color as it is. -/
theorem setpxWritesItsSlot : Obligations.SetpxWritesItsSlot := by
  intro index color s hs hi
  obtain ⟨hframe, hread⟩ := s.storedSlot_writeSlot hi 0x02#8 color
  exact ⟨_, exec_setpx_of_ready hs index color, hframe, hread⟩

/-- A packed color as a sum (41_color_conversion.md R140). -/
theorem pack_eq_ofNat (r g b : Byte) : pack r g b = BitVec.ofNat 32 (g.toNat * 2 ^ 16 + r.toNat * 2 ^ 8 + b.toNat) := by
  rw [pack_eq_componentsWord, ← componentsWord_toNat, BitVec.ofNat_toNat, BitVec.setWidth_eq]

/-- Settles O22: the shared write, with the packed color. -/
theorem setrgbWritesPackedColor : Obligations.SetrgbWritesPackedColor := by
  intro index r g b s hs hi
  obtain ⟨hframe, hread⟩ := s.storedSlot_writeSlot hi 0x03#8 (pack r g b)
  refine ⟨_, exec_setrgb_of_ready hs index r g b, hframe, ?_⟩
  rwa [pack_eq_ofNat] at hread ⊢

/-! ## HSV conversion -/

/-- Law L1 (R145). -/
theorem hsvf_sat_zero (hue val : Byte) : hsvf hue 0#8 val = (val, val, val) := if_pos rfl

/-- Law L2 (R145): where `sat` is zero too, L1 gives the same. -/
theorem hsvf_val_zero (hue sat : Byte) : hsvf hue sat 0#8 = (0#8, 0#8, 0#8) := by
  unfold hsvf
  split <;> rfl

theorem hsvToPacked_sat_zero (hue val : Byte) : hsvToPacked hue 0#8 val = pack val val val := by
  rw [hsvToPacked, hsvf_sat_zero]

theorem hsvToPacked_val_zero (hue sat : Byte) : hsvToPacked hue sat 0#8 = 0#32 := by
  rw [hsvToPacked, hsvf_val_zero]
  rfl

/-- Settles O23: the shared write, with the converted color, which L1 and L2 fix where `sat` or `val` is zero. -/
theorem sethsvWritesConvertedColor : Obligations.SethsvWritesConvertedColor := by
  intro index hue sat val s hs hi
  obtain ⟨hframe, hread⟩ := s.storedSlot_writeSlot hi 0x04#8 (hsvToPacked hue sat val)
  have hslot := (hread index.toNat).trans (if_pos rfl)
  refine ⟨_, exec_sethsv_of_ready hs index hue sat val, hframe, fun j hj => (hread j).trans (if_neg hj), hslot, ?_, ?_⟩
  · rintro rfl
    exact hslot.trans (congrArg some (hsvToPacked_sat_zero hue val))
  · rintro rfl
    exact hslot.trans (congrArg some (hsvToPacked_val_zero hue sat))

/-- Settles O35: a conversion is accepted in both phases and responds with the packed color. -/
theorem rgb2pkResponds : Obligations.Rgb2pkResponds := by
  intro r g b s hw hp
  rw [← pack_eq_ofNat]
  exact accept_conversion hw hp _

/-- Settles O36: a conversion is accepted in both phases, and the laws hold of every `HSVF` the model admits. -/
theorem hsv2pkResponds : Obligations.Hsv2pkResponds := by
  intro hue sat val s hw hp
  refine ⟨accept_conversion hw hp _, ?_, ?_⟩
  · rintro rfl
    exact hsvf_sat_zero hue val
  · rintro rfl
    exact hsvf_val_zero hue sat

/-! ## The reference routine -/

/-- A component scaled down by a factor of at most 255 is at most 255 (R147). -/
theorem scaled_le (val : Byte) (k : Nat) : (val.toNat * (255 - k)) >>> 8 ≤ 255 := by
  have hval := val.isLt
  have hprod : val.toNat * (255 - k) ≤ 255 * 255 := Nat.mul_le_mul (by omega) (by omega)
  rw [Nat.shiftRight_eq_div_pow]
  omega

/-- Every component the sector table gives is `val`, or `val` scaled down (R147). -/
theorem hsvRefNat_forall (hue sat val : Byte) (P : Nat → Prop) (hval : P val.toNat)
    (hscaled : ∀ k, P ((val.toNat * (255 - k)) >>> 8)) :
    P (hsvRefNat hue sat val).1 ∧ P (hsvRefNat hue sat val).2.1 ∧ P (hsvRefNat hue sat val).2.2 := by
  unfold hsvRefNat
  split
  · exact ⟨hval, hval, hval⟩
  · split
    · exact ⟨hval, hscaled _, hscaled _⟩
    · exact ⟨hscaled _, hval, hscaled _⟩
    · exact ⟨hscaled _, hval, hscaled _⟩
    · exact ⟨hscaled _, hscaled _, hval⟩
    · exact ⟨hscaled _, hscaled _, hval⟩
    · exact ⟨hval, hscaled _, hscaled _⟩

theorem hsvRef_sat_zero (hue val : Byte) : hsvRef hue 0#8 val = (val, val, val) := by
  simp [hsvRef, hsvRefNat]

theorem hsvRef_val_zero (hue sat : Byte) : hsvRef hue sat 0#8 = (0#8, 0#8, 0#8) := by
  obtain ⟨h1, h2, h3⟩ := hsvRefNat_forall hue sat 0#8 (· = 0) rfl (by simp)
  simp [hsvRef, h1, h2, h3]

/-- Settles O38: every component is `val` scaled down or not at all, so it is zero with `val` and never above 255; and
the hues named are the first of their regions. -/
theorem referenceHsvObeysLaws : Obligations.ReferenceHsvObeysLaws := by
  refine ⟨hsvRef_sat_zero, hsvRef_val_zero, fun hue sat val => ?_, fun sat val hsat => ?_⟩
  · exact hsvRefNat_forall hue sat val (· ≤ 255) (Nat.le_of_lt_succ val.isLt) (scaled_le val)
  · simp [hsvRefNat, hsat, region]

/-! ## CLEAR and GETPX -/

/-- Settles O26: CLEAR and FILL of the whole store write the same range. -/
theorem clearZeroesTheStore : Obligations.ClearZeroesTheStore := by
  intro s hs
  have hfill : fillEnd s.count 0#32 0#32 = some s.count := if_pos rfl
  exact ⟨_, exec_clear_of_ready hs, rfl, s.read_clearStore, _, exec_fill_of_fillEnd_some hs 0#32 hfill, rfl⟩

/-- Settles O27: the slot is in range and holds the value. -/
theorem getpxReturnsItsSlot : Obligations.GetpxReturnsItsSlot := fun _ _ _ hs => exec_getpx_of_read hs

/-- Settles O28: the index is not below `N`. -/
theorem getpxBeyondTheStoreFaults : Obligations.GetpxBeyondTheStoreFaults := by
  intro index s hs hi
  refine (accept_store_ready hs _).trans (if_neg ?_)
  simpa [State.inStore] using hi

/-! ## Two commands in a row -/

theorem runCommands_pair {i j : Instr} {s t u : State} (hi : exec i s = .next t) (hj : exec j t = .next u) :
    runCommands [i, j] s = .next u := by
  simp [runCommands, hi, hj]

namespace State.StoredSlot

variable {s t : State} {opc : Byte} {i : Nat} {v : Slot} (h : s.StoredSlot opc i v t)
include h

theorem idleIn {p : Phase} (hs : s.idleIn p) : t.idleIn p := by
  rw [h.frame]
  exact hs

theorem count : t.count = s.count := by rw [h.frame]

theorem history : t.history = s.history ++ [.resp opc .ok 0#32] := by rw [h.frame]

theorem read_self : Memory.read t.pix i = some v := by rw [h.read, if_pos rfl]

theorem allValued (hv : s.allValued) : t.allValued := by
  intro j hj
  rw [h.read]
  split
  · rfl
  · exact hv j (h.count ▸ hj)

/-- The store is the one before with its slot replaced. -/
theorem pixels : t.pixels = s.pixels.set i v := by
  apply List.ext_getElem?
  intro j
  rw [State.pixels_getElem?, List.getElem?_set, State.pixels_length, State.pixels_getElem?, h.count, State.slotValue,
    State.slotValue, h.read]
  by_cases hj : i = j
  · subst hj
    simp
  · simp [hj, Ne.symm hj]

end State.StoredSlot

/-- Settles O29: the read finds what the write stored. -/
theorem setpxGetpxRoundTrip : Obligations.SetpxGetpxRoundTrip := by
  intro index color s hs hi
  have hstored := s.storedSlot_writeSlot hi 0x02#8 color
  have hget := exec_getpx_of_read (hstored.idleIn hs) (hstored.count ▸ hi) hstored.read_self
  refine ⟨_, runCommands_pair (exec_setpx_of_ready hs index color) hget, ?_⟩
  rw [responses_respond, hstored.history, responses_append, List.append_assoc]
  rfl

/-- Settles O46: SHOW sends the store the write leaves. -/
theorem showSendsTheLatestWrite : Obligations.ShowSendsTheLatestWrite := by
  intro index color s hs hv hi
  have hstored := s.storedSlot_writeSlot hi 0x02#8 color
  have hshow := exec_showFrame_of_allValued (hstored.idleIn hs) (hstored.allValued hv)
  refine ⟨_, runCommands_pair (exec_setpx_of_ready hs index color) hshow, ?_⟩
  rw [State.show_transmitted, hstored.history, hstored.pixels]
  simp [transmissions_append]

/-- Writing the same slot again changes only the history. -/
theorem State.writeSlot_writeSlot (s : State) (opc : Byte) (index color : Slot) :
    let t := s.writeSlot opc index color
    let u := t.writeSlot opc index color
    u = { t with pix := u.pix, history := u.history } ∧ ∀ j, Memory.read u.pix j = Memory.read t.pix j := by
  intro t u
  by_cases hi : index.toNat < s.count
  · have hstored : s.StoredSlot opc index.toNat color t := s.storedSlot_writeSlot hi opc color
    have hagain : t.StoredSlot opc index.toNat color u := t.storedSlot_writeSlot (hstored.count ▸ hi) opc color
    refine ⟨by rw [hagain.history]; exact hagain.frame, fun j => ?_⟩
    rw [hagain.read]
    split
    · next hj => rw [hj, hstored.read_self]
    · rfl
  · have ht : t = s.respond opc .errBounds 0#32 := State.writeSlot_of_beyond (by omega) opc color
    have hu : u = t.respond opc .errBounds 0#32 :=
      State.writeSlot_of_beyond (by rw [ht]; exact Nat.le_of_not_lt hi) opc color
    rw [hu]
    exact ⟨rfl, fun _ => rfl⟩

/-- Filling the same range again leaves every slot as it is. -/
theorem Memory.read_fill_fill {α : Type} (m : Memory α) (first len : Nat) (v : α) (j : Nat) :
    Memory.read (Memory.fill (Memory.fill m first len v) first len v) j =
      Memory.read (Memory.fill m first len v) j := by
  simp only [Memory.read_fill]
  split <;> rfl

/-- Settles O31: each command writes the same values to the same slots again, or again finds its index out of range. -/
theorem storeCommandsAreIdempotent : Obligations.StoreCommandsAreIdempotent := by
  intro i s t hs hi h
  have hslot (opc : Byte) (index color : Slot)
      (hexec : ∀ s : State, s.idleIn .ready → exec i s = .next (s.writeSlot opc index color)) :
      ∃ u, exec i t = .next u ∧ u = { t with pix := u.pix, history := u.history } ∧
        ∀ j, Memory.read u.pix j = Memory.read t.pix j := by
    cases (hexec s hs).symm.trans h
    have hready : (s.writeSlot opc index color).idleIn .ready := by
      rw [State.writeSlot_eq]
      split <;> exact hs
    exact ⟨_, hexec _ hready, s.writeSlot_writeSlot opc index color⟩
  obtain ⟨index, color, rfl⟩ | ⟨index, r, g, b, rfl⟩ | ⟨index, hue, sat, val, rfl⟩ | ⟨first, cnt, color, rfl⟩ | rfl :=
    hi
  · exact hslot _ _ _ fun _ hs => exec_setpx_of_ready hs index color
  · exact hslot _ _ _ fun _ hs => exec_setrgb_of_ready hs index r g b
  · exact hslot _ _ _ fun _ hs => exec_sethsv_of_ready hs index hue sat val
  · cases hf : fillEnd s.count first cnt with
    | none => cases (exec_fill_of_fillEnd_none hs color hf).symm.trans h
    | some stop =>
      cases (exec_fill_of_fillEnd_some hs color hf).symm.trans h
      refine ⟨_, exec_fill_of_fillEnd_some ?_ color ?_, rfl, Memory.read_fill_fill _ _ _ _⟩
      · exact hs
      · exact hf
  · cases (exec_clear_of_ready hs).symm.trans h
    exact ⟨_, exec_clear_of_ready hs, rfl, Memory.read_fill_fill _ _ _ _⟩

end Sys2Proof.Machine

/-! Proofs: the laws of the encoding and the line signal (spec 42_encoder.md R178, R179), the ends of SHOW (R173, R174)
and of INIT (40_pixel_store.md R101 to R104) as equations, one for each answer. -/

namespace Sys2Proof.Machine

/-! ## The symbols of a slot -/

/-- The symbols of a slot are those of its bits 0 to 23, last first (R171). -/
theorem slotSymbols_eq_reverse (sym1 sym0 : Byte) (p : Slot) :
    slotSymbols sym1 sym0 p = (List.range 24).reverse.map fun k => symOf sym1 sym0 (p.getLsbD k) := by
  have hrev : (List.range 24).reverse = (List.range 24).map fun j => 23 - j := by decide
  rw [hrev, List.map_map]
  rfl

/-- Different symbol-bytes tell the bits apart (R170). -/
theorem symOf_inj {sym1 sym0 : Byte} (hne : sym1 ≠ sym0) {x y : Bool} :
    symOf sym1 sym0 x = symOf sym1 sym0 y ↔ x = y := by
  cases x <;> cases y <;> simp [symOf, hne, Ne.symm hne]

/-- The mask of R178 keeps bits 23 to 0. -/
theorem and_colorMask_eq_iff (p q : Slot) :
    p &&& 0x00FFFFFF#32 = q &&& 0x00FFFFFF#32 ↔ ∀ k < 24, p.getLsbD k = q.getLsbD k := by
  have hmask : ∀ k < 32, (0x00FFFFFF#32).getLsbD k = decide (k < 24) := by decide
  constructor
  · intro h k hk
    have hbit := congrArg (BitVec.getLsbD · k) h
    simpa [BitVec.getLsbD_and, hmask k (by omega), hk] using hbit
  · intro h
    apply BitVec.eq_of_getLsbD_eq
    intro k hk
    rw [BitVec.getLsbD_and, BitVec.getLsbD_and, hmask k hk]
    by_cases hk' : k < 24
    · rw [h k hk']
    · simp [hk']

theorem slotSymbols_eq_iff {sym1 sym0 : Byte} (hne : sym1 ≠ sym0) (p q : Slot) :
    slotSymbols sym1 sym0 p = slotSymbols sym1 sym0 q ↔ p &&& 0x00FFFFFF#32 = q &&& 0x00FFFFFF#32 := by
  rw [slotSymbols_eq_reverse, slotSymbols_eq_reverse, and_colorMask_eq_iff, List.map_inj_left]
  simp [symOf_inj hne]

/-- The high symbols among the symbols of a run of bits are as many as its ones. -/
theorem count_map_symOf {sym1 sym0 : Byte} (hne : sym1 ≠ sym0) (bit : Nat → Bool) (l : List Nat) :
    (l.map fun k => symOf sym1 sym0 (bit k)).count sym1 = (l.map fun k => (bit k).toNat).sum := by
  induction l with
  | nil => rfl
  | cons k l ih =>
    rw [List.map_cons, List.map_cons, List.sum_cons, List.count_cons, ih]
    cases bit k <;> simp [symOf, Ne.symm hne, Nat.add_comm]

theorem count_slotSymbols {sym1 sym0 : Byte} (hne : sym1 ≠ sym0) (p : Slot) :
    (slotSymbols sym1 sym0 p).count sym1 = ((List.range 24).map fun k => (p.getLsbD k).toNat).sum := by
  rw [slotSymbols_eq_reverse, count_map_symOf hne, List.map_reverse, List.sum_reverse]

/-! ## The laws of the encoding -/

/-- Each slot takes 24 bytes, so stores of one length have one encoding exactly when they agree slot by slot. -/
theorem flatMap_slotSymbols_eq_iff {sym1 sym0 : Byte} (hne : sym1 ≠ sym0) {ps qs : List Slot}
    (hlen : ps.length = qs.length) :
    ps.flatMap (slotSymbols sym1 sym0) = qs.flatMap (slotSymbols sym1 sym0) ↔
      ps.map (fun p => p &&& 0x00FFFFFF#32) = qs.map (fun p => p &&& 0x00FFFFFF#32) := by
  induction ps generalizing qs with
  | nil =>
    obtain rfl : qs = [] := List.length_eq_zero_iff.mp hlen.symm
    simp
  | cons p ps ih =>
    cases qs with
    | nil => simp at hlen
    | cons q qs =>
      rw [List.flatMap_cons, List.flatMap_cons, List.map_cons, List.map_cons, List.cons.injEq,
        ← slotSymbols_eq_iff hne, ← ih (Nat.succ.inj hlen)]
      constructor
      · intro h
        exact List.append_inj h (by simp)
      · rintro ⟨hhead, htail⟩
        rw [hhead, htail]

theorem enc_eq_cons (ps : List Slot) :
    enc ps = Config.marker :: ps.flatMap (slotSymbols Config.sym1 Config.sym0) := rfl

theorem enc_eq_iff {ps qs : List Slot} (hlen : ps.length = qs.length) :
    enc ps = enc qs ↔ ps.map (fun p => p &&& 0x00FFFFFF#32) = qs.map (fun p => p &&& 0x00FFFFFF#32) := by
  rw [enc_eq_cons, enc_eq_cons, List.cons_inj_right, flatMap_slotSymbols_eq_iff Config.sym1_ne_sym0 hlen]

theorem count_tail_enc (ps : List Slot) :
    (enc ps).tail.count Config.sym1 = (ps.map fun p => ((List.range 24).map fun k => (p.getLsbD k).toNat).sum).sum := by
  rw [enc_eq_cons, List.tail_cons, List.count_flatMap]
  exact congrArg List.sum (List.map_congr_left fun p _ => count_slotSymbols Config.sym1_ne_sym0 p)

/-- Settles O40: each byte is the symbol of its own bit, and different symbols tell the bits apart. -/
theorem encodingLaws : Obligations.EncodingLaws := by
  refine ⟨fun ps qs i j p q hp hq hj hbit => ?_, fun _ _ => enc_eq_iff, fun _ _ => mem_tail_enc, count_tail_enc⟩
  obtain ⟨-, -, hps⟩ := encodingFormula ps
  obtain ⟨-, -, hqs⟩ := encodingFormula qs
  rw [hps i j p hp hj, hqs i j q hq hj, hbit]

/-! ## The line signal -/

theorem byteLineBits_length (msbFirst : Bool) (b : Byte) : (byteLineBits msbFirst b).length = 8 := by
  simp [byteLineBits]

/-- Where every element gives `n` others, those of element `k` begin at `n k`. -/
theorem flatMap_getElem?_of_length {α β : Type} {f : α → List β} {n : Nat} (hf : ∀ x, (f x).length = n) {l : List α}
    {k j : Nat} {x : α} (hk : l[k]? = some x) (hj : j < n) : (l.flatMap f)[n * k + j]? = (f x)[j]? := by
  induction l generalizing k with
  | nil => simp at hk
  | cons y l ih =>
    rw [List.flatMap_cons]
    cases k with
    | zero =>
      obtain rfl : y = x := by simpa using hk
      rw [Nat.mul_zero, Nat.zero_add, List.getElem?_append_left (by rwa [hf])]
    | succ k =>
      have hrest : n * (k + 1) + j = (f y).length + (n * k + j) := by rw [hf]; ring
      rw [hrest, List.getElem?_append_right (Nat.le_add_right _ _), Nat.add_sub_cancel_left]
      exact ih (by simpa using hk)

/-- Settles O47: each byte gives its eight bits in the order of the parameter. -/
theorem lineSignalOrder : Obligations.LineSignalOrder := by
  intro msbFirst bytes
  constructor
  · simp [lineBits, List.length_flatMap, byteLineBits_length, Nat.mul_comm]
  · intro k j b hk hj
    rw [lineBits, flatMap_getElem?_of_length (byteLineBits_length msbFirst) hk hj]
    simp [byteLineBits, hj]

/-! ## The ends of SHOW -/

theorem State.show_of_ok {s : State} (h : s.transportAnswer 0 = some .ok) :
    (s.transmit fun t => t.respond 0x07#8 .ok 0#32) =
      ((s.showFramed.dropTransportAnswer.emit (s.showEvent (some .ok))).setScratch []).respond 0x07#8 .ok 0#32 := by
  apply s.show_cases (· = _)
  case noAnswer | fails => intro h'; cases h.symm.trans h'
  case done => intro _; rfl

theorem State.show_of_noAnswer {s : State} (h : s.transportAnswer 0 = none) :
    (s.transmit fun t => t.respond 0x07#8 .ok 0#32) =
      (s.showFramed.dropTransportAnswer.emit (s.showEvent none)).waitFor .transmit := by
  apply s.show_cases (· = _)
  case noAnswer => intro _; rfl
  case fails | done => intro h'; cases h.symm.trans h'

/-- Settles O41: the transmission answered OK, then the response. -/
theorem showSendsTheStore : Obligations.ShowSendsTheStore := by
  intro s hs hv h
  rw [exec_showFrame_of_allValued hs hv, State.show_of_ok h]
  simp [State.respond, State.emit, State.setScratch, State.dropTransportAnswer, State.showFramed, State.showEvent]

/-- Settles O43: the transmission with no answer. -/
theorem showWaitsForAnAnswer : Obligations.ShowWaitsForAnAnswer := by
  intro s hs hv h
  rw [exec_showFrame_of_allValued hs hv, State.show_of_noAnswer h]
  rfl

/-- The scratch buffer with a frame in it: the frame in its first bytes, what was there beyond them (20_memory.md
R53). -/
theorem Memory.read_frame (m : List Host.Cell) {ps : List Slot} {n : Nat} (hn : ps.length = n) (k : Nat) :
    Memory.read (Memory.writeFrom m 0 (enc ps)) k =
      if k < 24 * n + 1 then (enc ps)[k]? else Memory.read m k := by
  rw [Memory.read_writeFrom_zero, enc_length, hn]

/-- Settles O45: the frame is in the scratch buffer before the request, and the answer OK alone empties it. -/
theorem scratchHoldsTheFrame : Obligations.ScratchHoldsTheFrame := by
  constructor
  · intro s hs hv hne
    refine ⟨_, exec_showFrame_of_allValued hs hv, ?_⟩
    apply s.show_cases fun t => ∀ k, Memory.read t.scratch k =
      if k < 24 * s.count + 1 then (enc s.pixels)[k]? else Memory.read s.scratch k
    case noAnswer | fails => intro _; exact Memory.read_frame _ s.pixels_length
    case done => intro h; exact absurd h hne
  · intro pin bus freq s hs hb h0 h1 hne
    refine ⟨_, exec_init_of_unready hs pin bus freq, ?_⟩
    apply State.initialise_transmit_cases hb h0 h1 pin bus freq fun t => ∀ k, Memory.read t.scratch k =
      if k < 24 * s.count + 1 then (enc (List.replicate s.count 0#32))[k]? else Memory.read s.scratch k
    case noAnswer | fails => intro _; exact Memory.read_frame _ List.length_replicate
    case done => intro h; exact absurd h hne

/-! ## The ends of INIT -/

section
variable {s : State} (pin bus freq : Slot)

theorem State.askTransport_of_noAnswer (h : s.transportAnswer 0 = none) (q : Request) (r : FaultReason)
    (ev : Option TransportAnswer → Event) (k : State → State) :
    s.askTransport q r ev k = (s.dropTransportAnswer.emit (ev none)).waitFor q := by
  simp only [State.askTransport, h]

theorem State.askTransport_of_error (h : s.transportAnswer 0 = some .error) (q : Request) (r : FaultReason)
    (ev : Option TransportAnswer → Event) (k : State → State) :
    s.askTransport q r ev k = (s.dropTransportAnswer.emit (ev (some .error))).halt r := by
  simp only [State.askTransport, h]

theorem State.askTransport_of_ok (h : s.transportAnswer 0 = some .ok) (q : Request) (r : FaultReason)
    (ev : Option TransportAnswer → Event) (k : State → State) :
    s.askTransport q r ev k = k (s.dropTransportAnswer.emit (ev (some .ok))) := by
  simp only [State.askTransport, h]

theorem State.initialise_of_alloc_noAnswer (ha : s.allocated = false) (h : s.allocAnswer 0 = none) :
    s.initialise pin bus freq = (s.dropAllocAnswer.emit (.alloc s.count none)).waitFor .alloc := by
  simp only [State.initialise, State.ensureStore, State.askAllocator, ha, h, Bool.false_eq_true, if_false]

/-- INIT of a store that is or gets backed, up to its first transport request (R103). -/
theorem State.transportAnswer_backed_setConfig (k : Nat) :
    (s.backed.setConfig pin bus freq).transportAnswer k = s.transportAnswer k := by simp

/-- INIT up to its second transport request (R103). -/
theorem State.transportAnswer_busReady (k : Nat) :
    (s.busReady pin bus freq).transportAnswer k = s.transportAnswer (k + 1) := by simp [State.busReady]

variable (hb : s.canBack)
include hb

theorem State.initialise_of_bus_noAnswer (h0 : s.transportAnswer 0 = none) :
    s.initialise pin bus freq = ((s.backed.setConfig pin bus freq).dropTransportAnswer.emit
      (.busInit pin bus Config.maxTransferBytes true none)).waitFor .busInit := by
  rw [State.initialise_of_canBack hb, State.configure,
    State.askTransport_of_noAnswer ((State.transportAnswer_backed_setConfig ..).trans h0)]

theorem State.initialise_of_bus_error (h0 : s.transportAnswer 0 = some .error) :
    s.initialise pin bus freq = ((s.backed.setConfig pin bus freq).dropTransportAnswer.emit
      (.busInit pin bus Config.maxTransferBytes true (some .error))).halt .transportBusInit := by
  rw [State.initialise_of_canBack hb, State.configure,
    State.askTransport_of_error ((State.transportAnswer_backed_setConfig ..).trans h0)]

variable (h0 : s.transportAnswer 0 = some .ok)
include h0

theorem State.initialise_of_bus_ok :
    s.initialise pin bus freq = (s.busReady pin bus freq).askTransport .deviceAttach .transportAttach
      (fun a => .deviceAttach bus freq true a) fun u => u.attach.bringUp := by
  rw [State.initialise_of_canBack hb, State.configure,
    State.askTransport_of_ok ((State.transportAnswer_backed_setConfig ..).trans h0), State.busReady]

theorem State.initialise_of_attach_noAnswer (h1 : s.transportAnswer 1 = none) :
    s.initialise pin bus freq = ((s.busReady pin bus freq).dropTransportAnswer.emit
      (.deviceAttach bus freq true none)).waitFor .deviceAttach := by
  rw [State.initialise_of_bus_ok pin bus freq hb h0,
    State.askTransport_of_noAnswer ((State.transportAnswer_busReady ..).trans h1)]

theorem State.initialise_of_attach_error (h1 : s.transportAnswer 1 = some .error) :
    s.initialise pin bus freq = ((s.busReady pin bus freq).dropTransportAnswer.emit
      (.deviceAttach bus freq true (some .error))).halt .transportAttach := by
  rw [State.initialise_of_bus_ok pin bus freq hb h0,
    State.askTransport_of_error ((State.transportAnswer_busReady ..).trans h1)]

variable (h1 : s.transportAnswer 1 = some .ok)
include h1

theorem State.initialise_of_transmit_noAnswer (h2 : s.transportAnswer 2 = none) :
    s.initialise pin bus freq =
      ((s.framed pin bus freq).dropTransportAnswer.emit (s.allOffEvent none)).waitFor .transmit := by
  apply State.initialise_transmit_cases hb h0 h1 pin bus freq (· = _)
  case noAnswer => intro _; rfl
  case fails | done => intro h'; cases h2.symm.trans h'

theorem State.initialise_of_transmit_ok (h2 : s.transportAnswer 2 = some .ok) :
    s.initialise pin bus freq =
      (((s.framed pin bus freq).dropTransportAnswer.emit (s.allOffEvent (some .ok))).setScratch []).enterReady.respond
        0x01#8 .ok 0#32 := by
  apply State.initialise_transmit_cases hb h0 h1 pin bus freq (· = _)
  case noAnswer | fails => intro h'; cases h2.symm.trans h'
  case done => intro _; rfl

end

/-- Settles O16: the request and the response are the only events. -/
theorem failedAllocationTouchesNothing : Obligations.FailedAllocationTouchesNothing := by
  intro pin bus freq s hs ha h
  rw [exec_init_of_unready hs, State.initialise_of_allocFails ha h]
  simp [State.respond, State.emit, State.dropAllocAnswer]

/-! What INIT has done when its frame is in the scratch buffer, in each field the lemmas before leave out. -/

section
variable (s : State) (pin bus freq : Slot)

@[simp] theorem State.busReady_history : (s.busReady pin bus freq).history =
    s.backed.history ++ [.busInit pin bus Config.maxTransferBytes true (some .ok)] := rfl

@[simp] theorem State.framed_history : (s.framed pin bus freq).history =
    s.backed.history ++ [.busInit pin bus Config.maxTransferBytes true (some .ok),
      .deviceAttach bus freq true (some .ok)] := by simp [State.framed, State.readyToTransmit]

theorem State.read_backed_clearStore (j : Nat) : Memory.read s.backed.clearStore.pix j =
    if j < s.count then some 0#32 else if s.allocated then Memory.read s.pix j else none := by
  rw [State.read_clearStore, State.backed_count, State.backed_pix]
  cases s.allocated <;> rfl

end

/-- Settles O15: the end of INIT, field by field, the constants and the draws as in every end. -/
theorem initBringsTheBlockUp : Obligations.InitBringsTheBlockUp := by
  intro pin bus freq s hs hb h0 h1 h2
  obtain ⟨hpix, -, hready, -⟩ := State.initialise_sentAllOff hs hb h0 h1 pin bus freq
  obtain ⟨hcount, hbacking, hrefused, hhost, -, -⟩ := initialise_keepsAcquired s pin bus freq
  have hdrawn := State.initialise_drawn hb h0 h1 pin bus freq
  have hread := s.read_backed_clearStore
  rw [← hpix] at hread
  refine ⟨_, exec_init_of_unready hs pin bus freq, hready.mpr h2, ?allocated, ?handle, ?cfgPin, ?cfgBus, ?cfgFreq,
    hread, ?scratch, hcount, hbacking, ?fault, hrefused, ?waiting, hhost, hdrawn, ?allocAnswers, ?history⟩
  all_goals rw [State.initialise_of_transmit_ok pin bus freq hb h0 h1 h2]
  case handle | cfgPin | cfgBus | cfgFreq | scratch => rfl
  case waiting => simpa [State.framed, State.readyToTransmit, State.busReady] using hs.1
  case history => simp [State.backed_history, State.allOffEvent]
  case allocated | fault => simp [State.framed, State.readyToTransmit, State.busReady]
  case allocAnswers => simp [State.framed, State.readyToTransmit, State.busReady, State.backed_allocAnswers]

/-- Settles O18: each fault keeps what was done before its request. -/
theorem initTransportFaultsArePrecise : Obligations.InitTransportFaultsArePrecise := by
  intro pin bus freq s hs hb
  rw [exec_init_of_unready hs]
  refine ⟨fun h0 => ?_, fun h0 h1 => ?_, fun h0 h1 h2 => ?_⟩
  · rw [State.initialise_of_bus_error pin bus freq hb h0]
    simp [State.halt, State.emit, State.dropTransportAnswer, State.setConfig]
  · rw [State.initialise_of_attach_error pin bus freq hb h0 h1]
    simp [State.halt, State.emit, State.dropTransportAnswer, State.setConfig, State.busReady, ← List.drop_one]
  · rw [State.initialise_of_transmit_error hb h0 h1 h2]
    simp [State.halt, State.emit, State.dropTransportAnswer, State.setConfig, State.busReady, State.framed,
      State.readyToTransmit, State.setScratch, State.clearStore, State.setPix, State.attach, State.allOffEvent,
      ← List.drop_one]

/-- INIT that waits is still in phase Unready and has not responded (60_exceptions.md R205). -/
theorem initialise_waits {s : State} (hs : s.idleIn .unready) (pin bus freq : Slot)
    (h : (s.initialise pin bus freq).waiting ≠ none) :
    (s.initialise pin bus freq).phase = .unready ∧
      responses (s.initialise pin bus freq).history = responses s.history := by
  obtain ⟨hw, hp⟩ := hs
  revert h
  apply s.initialise_cases pin bus freq fun t =>
    t.waiting ≠ none → t.phase = .unready ∧ responses t.history = responses s.history
  case noAlloc | noBus | noAttach | noTransmit => intros; simp [State.busReady, hp, responses_append]
  all_goals intros; simp_all [State.framed, State.readyToTransmit, State.busReady]

/-- Settles O19: each request that is not answered is the last event, with the draws after it to come. -/
theorem initWaitsForAnAnswer : Obligations.InitWaitsForAnAnswer := by
  intro pin bus freq s hs
  refine ⟨_, exec_init_of_unready hs pin bus freq, fun ha h => ?_, fun hb h0 => ?_, fun hb h0 h1 => ?_,
    fun hb h0 h1 h2 => ?_, initialise_waits hs pin bus freq⟩
  · rw [State.initialise_of_alloc_noAnswer pin bus freq ha h]
    exact ⟨rfl, rfl, rfl, rfl⟩
  · rw [State.initialise_of_bus_noAnswer pin bus freq hb h0]
    simp
  · rw [State.initialise_of_attach_noAnswer pin bus freq hb h0 h1]
    simp [State.busReady, ← List.drop_one]
  · rw [State.initialise_of_transmit_noAnswer pin bus freq hb h0 h1 h2]
    exact ⟨rfl, by simp, rfl, List.getLast?_concat⟩

end Sys2Proof.Machine

/-! Proofs: the host's direct access to a borrowed buffer (spec 10_state.md R38; 20_memory.md R52, R57). -/

namespace Sys2Proof.Machine

/-! ## The bytes of a slot -/

theorem byteShift_add_le (e : Endian) {k : Nat} (hk : k < 4) : byteShift e k + 8 ≤ 32 := by
  cases e <;> simp only [byteShift] <;> omega

/-- Different bytes of a slot do not overlap. -/
theorem byteShift_disjoint (e : Endian) {k l : Nat} (hk : k < 4) (hl : l < 4) (hne : k ≠ l) :
    byteShift e k + 8 ≤ byteShift e l ∨ byteShift e l + 8 ≤ byteShift e k := by
  cases e <;> simp only [byteShift] <;> omega

/-- Replacing a byte replaces its eight bits and no other. -/
theorem getLsbD_setSlotByte (e : Endian) (v : Slot) (k : Nat) (b : Byte) {i : Nat} (hi : i < 32) :
    (setSlotByte e v k b).getLsbD i =
      if byteShift e k ≤ i ∧ i < byteShift e k + 8 then b.getLsbD (i - byteShift e k) else v.getLsbD i := by
  have hmask (j : Nat) : (0xFF#32).getLsbD j = decide (j < 8) := by
    by_cases hj : j < 32
    · have hall : ∀ j < 32, (0xFF#32).getLsbD j = decide (j < 8) := by decide
      exact hall j hj
    · simp [BitVec.getLsbD_of_ge _ j (Nat.le_of_not_lt hj), show ¬ j < 8 by omega]
  simp only [setSlotByte, BitVec.getLsbD_or, BitVec.getLsbD_and, BitVec.getLsbD_not, BitVec.getLsbD_shiftLeft,
    BitVec.getLsbD_setWidth, hmask]
  by_cases hlo : byteShift e k ≤ i
  · by_cases hhi : i < byteShift e k + 8
    · simp [hi, hlo, hhi, show ¬ i < byteShift e k by omega, show i - byteShift e k < 8 by omega,
        show i - byteShift e k < 32 by omega]
    · simp [hi, hhi, show ¬ i < byteShift e k by omega, show ¬ i - byteShift e k < 8 by omega,
        BitVec.getLsbD_of_ge b (i - byteShift e k) (by omega)]
  · simp [hi, hlo, show i < byteShift e k by omega]

/-- A byte that was written is read back (R57). -/
theorem slotByte_setSlotByte_self (e : Endian) (v : Slot) {k : Nat} (hk : k < 4) (b : Byte) :
    slotByte e (setSlotByte e v k b) k = b := by
  have hle := byteShift_add_le e hk
  apply BitVec.eq_of_getLsbD_eq
  intro i hi
  rw [slotByte, BitVec.getLsbD_extractLsb', getLsbD_setSlotByte e v k b (by omega), if_pos (by omega)]
  simp [hi]

/-- The other bytes read as before (R57). -/
theorem slotByte_setSlotByte_of_ne (e : Endian) (v : Slot) {k l : Nat} (hk : k < 4) (hl : l < 4) (hne : k ≠ l)
    (b : Byte) : slotByte e (setSlotByte e v k b) l = slotByte e v l := by
  have hle := byteShift_add_le e hl
  have hdisjoint := byteShift_disjoint e hk hl hne
  apply BitVec.eq_of_getLsbD_eq
  intro i hi
  rw [slotByte, slotByte, BitVec.getLsbD_extractLsb', BitVec.getLsbD_extractLsb',
    getLsbD_setSlotByte e v k b (by omega), if_neg (by omega)]

/-! ## The host's moves -/

section
variable {s : State} (hw : s.waiting = none) (hp : s.phase ≠ .halted) (hb : s.backing = .borrowed)
include hw hp hb

/-- The host reads a borrowed store of an idle block that is not halted directly (R38). -/
theorem hostReadSlot_of_borrowed (i : Nat) : hostReadSlot s i = Memory.read s.pix i := by
  cases h : s.phase <;> simp_all [hostReadSlot]

theorem hostReadByte_of_borrowed (a : Nat) :
    hostReadByte s a = (Memory.read s.pix (a / 4)).map fun v => slotByte Config.hostEndian v (a % 4) := by
  rw [hostReadByte, hostReadSlot_of_borrowed hw hp hb]

theorem hostReadByte_setPix (m : Memory Slot) (a : Nat) :
    hostReadByte (s.setPix m) a = (Memory.read m (a / 4)).map fun v => slotByte Config.hostEndian v (a % 4) :=
  hostReadByte_of_borrowed (s := s.setPix m) hw hp hb a

/-- After a write of one byte the host reads that byte at its address, and every other byte as before: it is of another
slot, or another byte of the same one (R57). -/
theorem hostReadByte_of_written {address : Nat} {v : Slot} (hv : Memory.read s.pix (address / 4) = some v) (b : Byte)
    (a : Nat) :
    hostReadByte (s.setPix (Memory.write s.pix (address / 4)
      (setSlotByte Config.hostEndian v (address % 4) b))) a = if a = address then some b else hostReadByte s a := by
  have hbyte (k : Nat) : k % 4 < 4 := Nat.mod_lt k (by decide)
  rw [hostReadByte_setPix hw hp hb, hostReadByte_of_borrowed hw hp hb, Memory.read_write]
  by_cases hslot : a / 4 = address / 4
  · rw [if_pos hslot, hslot, hv, Option.map_some, Option.map_some]
    split
    · next ha => rw [ha, slotByte_setSlotByte_self _ _ (hbyte _)]
    · next ha => rw [slotByte_setSlotByte_of_ne _ _ (hbyte _) (hbyte _) (by omega)]
  · rw [if_neg hslot, if_neg fun ha => hslot (by rw [ha])]

theorem step_of_writeSlot {index : Nat} {v : Slot} {rest : List HostMove} (hh : s.host = .writeSlot index v :: rest) :
    step s = .next
      (if index < s.count then s.dropHostMove.setPix (Memory.write s.pix index v) else s.dropHostMove) := by
  simp only [step, hh]
  exact hostAccess_borrowed (s := s.dropHostMove) hw hp hb _

theorem step_of_writeByte {address : Nat} {b : Byte} {rest : List HostMove}
    (hh : s.host = .writeByte address b :: rest) {v : Slot} (hx : address / 4 < s.count)
    (hv : Memory.read s.pix (address / 4) = some v) :
    step s = .next (s.dropHostMove.setPix
      (Memory.write s.pix (address / 4) (setSlotByte Config.hostEndian v (address % 4) b))) := by
  simp only [step, hh]
  refine (hostAccess_borrowed (s := s.dropHostMove) hw hp hb _).trans ((if_pos hx).trans ?_)
  rw [State.dropHostMove_pix, hv]

theorem step_of_writeByte_beyond {address : Nat} {b : Byte} {rest : List HostMove}
    (hh : s.host = .writeByte address b :: rest) (hx : s.count ≤ address / 4) : step s = .next s.dropHostMove := by
  simp only [step, hh]
  exact (hostAccess_borrowed (s := s.dropHostMove) hw hp hb _).trans (if_neg (Nat.not_lt.mpr hx))

end

/-- SETPX of an index below `N` writes the store as the host would (R38). -/
theorem exec_setpx_ofNat {s : State} (hs : s.idleIn .ready) {index : Nat} (hx : index < s.count)
    (hlt : index < 2 ^ 32) (v : Slot) :
    exec (.setpx (BitVec.ofNat 32 index) v) s =
      .next ((s.setPix (Memory.write s.pix index v)).respond 0x02#8 .ok 0#32) := by
  have hindex : (BitVec.ofNat 32 index).toNat = index := Nat.mod_eq_of_lt hlt
  rw [exec_setpx_of_ready hs, State.writeSlot_of_inStore (by rwa [hindex]), hindex]

/-- Settles O48: inside the store the host's write and SETPX make the same write; beyond it the host's write is none. -/
theorem hostWritesLikeSetpx : Obligations.HostWritesLikeSetpx := by
  intro index v s rest hw hp hb hh
  have hstep := step_of_writeSlot hw hp hb hh
  by_cases hx : index < s.count
  · rw [if_pos hx, State.dropHostMove_eq hh] at hstep
    refine ⟨_, hstep, rfl, fun j => ?_, fun hready _ hlt => ⟨_, exec_setpx_ofNat ⟨hw, hready⟩ hx hlt v, rfl⟩⟩
    rw [State.setPix_pix, Memory.read_write]
    exact if_congr (by simp [hx]) rfl rfl
  · rw [if_neg hx, State.dropHostMove_eq hh] at hstep
    exact ⟨_, hstep, rfl, fun j => (if_neg fun h => hx h.2).symm, fun _ h => absurd h hx⟩

/-- Settles O49: the byte of its slot is replaced, in a store whose slot held a value. -/
theorem hostByteRoundTrip : Obligations.HostByteRoundTrip := by
  intro address b s rest hw hp hb hh
  refine ⟨fun hv hx => ?_, fun hx => ?_⟩
  · have hslot := State.read_of_allValued hv hx
    have hstep := step_of_writeByte hw hp hb hh hx hslot
    rw [State.dropHostMove_eq hh] at hstep
    have hread (a : Nat) := hostReadByte_of_written (s := { s with host := rest }) hw hp hb hslot b a
    refine ⟨_, hstep, rfl, fun j hj => ?_, (hread address).trans (if_pos rfl), fun a ha => (hread a).trans (if_neg ha)⟩
    rw [State.setPix_pix, Memory.read_write, if_neg hj]
  · rw [← State.dropHostMove_eq hh]
    exact step_of_writeByte_beyond hw hp hb hh hx

end Sys2Proof.Machine
